-- ==== Sys2Proof/Word.lean ====
section
/-! DEFINITION. The value widths of the Modbus RTU server core (rule R10): byte, 16-bit word, single bit. -/

namespace Sys2Proof

/-- `u8`: a byte on the wire (rule R10). -/
abbrev Byte := BitVec 8

/-- `u16`: a register value, an address, a quantity or a CRC (rule R10). -/
abbrev Word := BitVec 16

/-- `bit`: a coil or a discrete input (rule R10). -/
abbrev Bit := BitVec 1

end Sys2Proof
end

