-- ==== Sys2Proof/Config.lean ====
section
/-! DEFINITION. What an instance of the block fixes (rule R7), the configuration record that arrives at run time
(rules R21, R279), the values the model names where the spec leaves a parameter open, and the free values. -/

namespace Sys2Proof

/-- One store table: the elements that differ from zero, by rising address (rule R28; log entry 4). -/
abbrev Cells (w : Nat) := List (Nat × BitVec w)

/-- An image of the four tables (rule R7 `INIT_STORE`, rule R28). -/
structure Store where
  /-- `CO`, coils. -/
  co : Cells 1
  /-- `DI`, discrete inputs. -/
  di : Cells 1
  /-- `HR`, holding registers. -/
  hr : Cells 16
  /-- `IR`, input registers. -/
  ir : Cells 16
deriving DecidableEq, Repr

/-- The parameters "fixed for one instance of the block" (rule R7). No event writes them. They stand in `State`, so
that a claim over every state is a claim over every instance (log entry 2). -/
structure Params where
  /-- `N_CO`. -/
  nCO : Nat
  /-- `N_DI`. -/
  nDI : Nat
  /-- `N_HR`. -/
  nHR : Nat
  /-- `N_IR`. -/
  nIR : Nat
  /-- `MAX_ADU`, the capacity of the frame buffer in bytes. -/
  maxAdu : Nat
  /-- `T_GUARD`, µs. -/
  tGuard : Nat
  /-- The instance's override of `T_IC`, if it has one (rules R7, R8, R276). -/
  tICOverride : Option Nat
  /-- The instance's override of `T_IF`, if it has one (rules R7, R8, R276). -/
  tIFOverride : Option Nat
  /-- `INIT_STORE`, loaded into the four tables at every `RESET` (rule R330). -/
  initStore : Store
deriving DecidableEq, Repr

/-- The configuration record of rules R21 and R279, as `RESET` and `RECONFIG` supply it. -/
structure Cfg where
  /-- `cfg.station`. -/
  station : Byte
  /-- `cfg.de_present`: a direction-control pin is configured. -/
  dePresent : Bool
  /-- `cfg.de_inverted`: false is direct, true is inverted. -/
  deInverted : Bool
  /-- `cfg.baud`. -/
  baud : Nat
  /-- `cfg.peer_present`. -/
  peerPresent : Bool
deriving DecidableEq, Repr

namespace Config

/-- The instance `State.reset` stands for. DESIGN CHOICE (log entry 3), unsafe: rule R7 leaves the extents, `T_GUARD`
and `INIT_STORE` open; the extents are the largest the rule allows, so that every address exists, the image is all
zero, `T_GUARD` is the value of 95_test_vectors.md section 0.3; `MAX_ADU` is rule R7's own 256. -/
def resetParams : Params where
  nCO := 65536
  nDI := 65536
  nHR := 65536
  nIR := 65536
  maxAdu := 256
  tGuard := 500
  tICOverride := none
  tIFOverride := none
  initStore := { co := [], di := [], hr := [], ir := [] }

/-- The record of the `RESET(c, 0)` that `State.reset` is the outcome of. DESIGN CHOICE (log entry 3), unsafe:
`c` is an input; this is the record `CP` of 95_test_vectors.md section 0.2. -/
def resetCfg : Cfg where
  station := 0x11#8
  dePresent := true
  deInverted := false
  baud := 9600
  peerPresent := true

/-- Free values: what `cfg.station` holds after the `n`-th rejected `RESET` (rule R35, item I7: "any value"). -/
opaque freeStation : Nat → Byte

/-- Free values: what `cfg.de_present` holds after the `n`-th rejected `RESET` (rule R35, item I7). -/
opaque freeDePresent : Nat → Bool

/-- Free values: what `cfg.de_inverted` holds after the `n`-th rejected `RESET` (rule R35, item I7). -/
opaque freeDeInverted : Nat → Bool

/-- Free values: what `cfg.baud` holds after the `n`-th rejected `RESET` (rule R35, item I7). -/
opaque freeBaud : Nat → Nat

/-- Free values: what `cfg.peer_present` holds after the `n`-th rejected `RESET` (rule R35, item I7). -/
opaque freePeerPresent : Nat → Bool

/-- Free values: what `T_IC` holds after the `n`-th rejected `RESET` (rule R35, item I7). -/
opaque freeTIC : Nat → Nat

/-- Free values: what `T_IF` holds after the `n`-th rejected `RESET` (rule R35, item I7). -/
opaque freeTIF : Nat → Nat

end Config

end Sys2Proof
end

