-- ==== Sys2Proof/Machine/Bytes.lean ====
section
/-! DEFINITION. Byte order and rounding (rules R10, R11). -/

namespace Sys2Proof.Machine

/-- `hi8(v) = v[15:8]` (rule R11). -/
def hi8 (v : Word) : Byte := v.extractLsb' 8 8

/-- `lo8(v) = v[7:0]` (rule R11). -/
def lo8 (v : Word) : Byte := v.extractLsb' 0 8

/-- `be16`: the 16-bit field whose first byte on the wire is `h` (rule R11). -/
def be16 (h l : Byte) : Word := BitVec.ofNat 16 (h.toNat * 256 + l.toNat)

/-- `ceil_div(a, b)` (rule R10). -/
def ceilDiv (a b : Nat) : Nat := (a + b - 1) / b

end Sys2Proof.Machine
end

