-- ==== Sys2Proof/Machine/Crc16.lean ====
section
/-! DEFINITION. The CRC-16 validator and generator (40_crc16.md). -/

namespace Sys2Proof.Machine

/-- One pass of the inner loop of rule R100. -/
def crcShift (c : Word) : Word :=
  if c.getLsbD 0 then (c >>> 1) ^^^ 0xA001#16 else c >>> 1

/-- `n` passes of the inner loop of rule R100. -/
def crcShifts : Nat → Word → Word
  | 0, c => c
  | n + 1, c => crcShifts n (crcShift c)

/-- One pass of the outer loop of rule R100: take in one byte. -/
def crcByte (c : Word) (b : Byte) : Word := crcShifts 8 (c ^^^ b.setWidth 16)

/-- `CRC16(s)` (rule R100). -/
def crc16 (s : List Byte) : Word := s.foldl crcByte 0xFFFF#16

/-- `CRC_OK(f)` (rule R102). Its precondition `len(f) ≥ 4` is the caller's. -/
def crcOk (f : List Byte) : Bool :=
  f.getD (f.length - 2) 0#8 == lo8 (crc16 (f.take (f.length - 2))) &&
  f.getD (f.length - 1) 0#8 == hi8 (crc16 (f.take (f.length - 2)))

/-- `APPEND_CRC(s)` (rule R103): low byte first (rule R54). -/
def appendCrc (s : List Byte) : List Byte := s ++ [lo8 (crc16 s), hi8 (crc16 s)]

end Sys2Proof.Machine
end

