-- ==== Sys2Proof/Syntax.lean ====
section
/-! DEFINITION. The requests the block executes: one constructor per row of the opcode map (rule R85). -/

namespace Sys2Proof

/-- A request, with the fields of its frame that carry meaning (rules R70, R74, R77 to R79). `addr` is the frame's
`ADDR` byte. The CRC is no operand: it is a function of the other bytes (rule R103). `BC` is no operand either: in a
well-formed payload it is the number of data bytes (rule R162). -/
inductive Instr where
  /-- 0x01, read coils (rule R182). -/
  | rdco (addr : Byte) (start qty : Word)
  /-- 0x02, read discrete inputs (rule R183). -/
  | rddi (addr : Byte) (start qty : Word)
  /-- 0x03, read holding registers (rule R184). -/
  | rdhr (addr : Byte) (start qty : Word)
  /-- 0x04, read input registers (rule R185). -/
  | rdir (addr : Byte) (start qty : Word)
  /-- 0x05, write single coil (rule R200). -/
  | wrco (addr : Byte) (address value : Word)
  /-- 0x06, write single register (rule R201). -/
  | wrhr (addr : Byte) (address value : Word)
  /-- 0x0F, write multiple coils (rule R202). -/
  | wmco (addr : Byte) (start qty : Word) (data : List Byte)
  /-- 0x10, write multiple registers (rule R203). -/
  | wmhr (addr : Byte) (start qty : Word) (data : List Byte)
  /-- Every other function code, with a payload that is not examined (rule R170). -/
  | illegal (addr fc : Byte) (payload : List Byte)
deriving DecidableEq, Repr

/-- The `ADDR` byte of a request (rule R70). -/
def Instr.target : Instr → Byte
  | .rdco a _ _ => a
  | .rddi a _ _ => a
  | .rdhr a _ _ => a
  | .rdir a _ _ => a
  | .wrco a _ _ => a
  | .wrhr a _ _ => a
  | .wmco a _ _ _ => a
  | .wmhr a _ _ _ => a
  | .illegal a _ _ => a

end Sys2Proof
end

