-- ==== Sys2Proof/WellFormed.lean ====
section
/-! DEFINITION. Which terms of `Instr` are requests a frame can carry. -/

namespace Sys2Proof

/-- Why a term of `Instr` is no request. -/
inductive IllFormed where
  /-- More data bytes than the one-byte `BC` can count (rules R74, R79). -/
  | byteCountTooLarge
  /-- An `illegal` whose function code is one of the eight supported ones (rules R85, R170). -/
  | supportedCode
deriving DecidableEq, Repr

/-- The eight function codes the block supports (rule R2). -/
def supportedCodes : List Byte :=
  [0x01#8, 0x02#8, 0x03#8, 0x04#8, 0x05#8, 0x06#8, 0x0F#8, 0x10#8]

/-- The first check a term fails, if any. -/
def illFormed : Instr → Option IllFormed
  | .rdco _ _ _ => none
  | .rddi _ _ _ => none
  | .rdhr _ _ _ => none
  | .rdir _ _ _ => none
  | .wrco _ _ _ => none
  | .wrhr _ _ _ => none
  | .wmco _ _ _ data => if data.length < 256 then none else some .byteCountTooLarge
  | .wmhr _ _ _ data => if data.length < 256 then none else some .byteCountTooLarge
  | .illegal _ fc _ => if fc ∈ supportedCodes then some .supportedCode else none

/-- The term is a request some frame carries (rules R77 to R79, R85). -/
abbrev WellFormed (i : Instr) : Prop := illFormed i = none

end Sys2Proof
end

