-- ==== Sys2Proof/Decode.lean ====
section
/-! DEFINITION. From a candidate frame to a request or a named rejection (rules R70 to R79, R85 to R89, R142, R143,
R162), and the encoder written from the same layouts. -/

namespace Sys2Proof

open Sys2Proof.Machine

/-- Why a candidate frame carries no request. Each is a framing error, dropped in silence (rule R305). -/
inductive Reject where
  /-- Fewer than 4 bytes (rule R142). -/
  | tooShort
  /-- `CRC_OK` fails (rule R143). -/
  | badCrc
  /-- A supported function code whose payload does not have its format's length (rule R162): `NoReply`. -/
  | malformedLength
deriving DecidableEq, Repr

/-- `CHECK_FORMAT` for `RQ_RANGE` and `RQ_SINGLE` (rules R77, R78, R162): exactly two 16-bit fields. -/
def decodePair (mk : Word → Word → Instr) : List Byte → Except Reject Instr
  | [a, b, c, d] => .ok (mk (be16 a b) (be16 c d))
  | _ => .error .malformedLength

/-- `CHECK_FORMAT` for `RQ_MULTI` (rules R79, R162): two 16-bit fields, `BC`, and exactly `BC` data bytes. -/
def decodeMulti (mk : Word → Word → List Byte → Instr) : List Byte → Except Reject Instr
  | a :: b :: c :: d :: bc :: data =>
    if data.length = bc.toNat then .ok (mk (be16 a b) (be16 c d) data) else .error .malformedLength
  | _ => .error .malformedLength

/-- The opcode map (rule R85): an exact match on all 8 bits of `FC`, with the illegal function as its default. -/
def decodePdu (addr fc : Byte) (p : List Byte) : Except Reject Instr :=
  if fc = 0x01#8 then decodePair (.rdco addr) p
  else if fc = 0x02#8 then decodePair (.rddi addr) p
  else if fc = 0x03#8 then decodePair (.rdhr addr) p
  else if fc = 0x04#8 then decodePair (.rdir addr) p
  else if fc = 0x05#8 then decodePair (.wrco addr) p
  else if fc = 0x06#8 then decodePair (.wrhr addr) p
  else if fc = 0x0F#8 then decodeMulti (.wmco addr) p
  else if fc = 0x10#8 then decodeMulti (.wmhr addr) p
  else .ok (.illegal addr fc p)

/-- Read a candidate frame: minimum length (rule R142), CRC (rule R143), then `f[0]`, `f[1]` and `f[2 .. n-2)` as
rule R140 takes them apart. -/
def decode (f : List Byte) : Except Reject Instr :=
  if f.length < 4 then .error .tooShort
  else if crcOk f = false then .error .badCrc
  else decodePdu (f.getD 0 0#8) (f.getD 1 0#8) ((f.drop 2).take (f.length - 4))

/-- A 16-bit field in wire order (rules R53, R74). -/
def fieldBytes (v : Word) : List Byte := [hi8 v, lo8 v]

/-- The `FC` byte of a request (rule R85). -/
def opcode : Instr → Byte
  | .rdco _ _ _ => 0x01#8
  | .rddi _ _ _ => 0x02#8
  | .rdhr _ _ _ => 0x03#8
  | .rdir _ _ _ => 0x04#8
  | .wrco _ _ _ => 0x05#8
  | .wrhr _ _ _ => 0x06#8
  | .wmco _ _ _ _ => 0x0F#8
  | .wmhr _ _ _ _ => 0x10#8
  | .illegal _ fc _ => fc

/-- The `RQ_MULTI` payload (rule R79). -/
def multiPayload (start qty : Word) (data : List Byte) : List Byte :=
  fieldBytes start ++ fieldBytes qty ++ BitVec.ofNat 8 data.length :: data

/-- The `PAYLOAD` bytes of a request (rules R77 to R79). -/
def payload : Instr → List Byte
  | .rdco _ s q => fieldBytes s ++ fieldBytes q
  | .rddi _ s q => fieldBytes s ++ fieldBytes q
  | .rdhr _ s q => fieldBytes s ++ fieldBytes q
  | .rdir _ s q => fieldBytes s ++ fieldBytes q
  | .wrco _ a v => fieldBytes a ++ fieldBytes v
  | .wrhr _ a v => fieldBytes a ++ fieldBytes v
  | .wmco _ s q data => multiPayload s q data
  | .wmhr _ s q data => multiPayload s q data
  | .illegal _ _ p => p

/-- The frame that carries a request (rules R70, R88, R103). -/
def encode (i : Instr) : List Byte := appendCrc (i.target :: opcode i :: payload i)

/-- How many payload bytes a table word's instruction has, from its function code and the payload bytes the word
gives: the fixed length of its format, and for `RQ_MULTI` the length `BC` asks for (rules R77 to R79). -/
def tablePayloadLength (fc : Byte) (given : List Byte) : Nat :=
  if fc = 0x0F#8 ∨ fc = 0x10#8 then 5 + (given.getD 4 0#8).toNat
  else if fc ∈ supportedCodes then 4
  else given.length

/-- The frame of a table word: byte 0 of the word is `FC` (the table matches `FC` alone, rule R85), its further bytes
are payload, missing payload bytes are zero, and `ADDR` and the CRC, to which the table gives no bits, are supplied. -/
def tableFrame (addr : Byte) (nbits w : Nat) : List Byte :=
  let fc : Byte := BitVec.ofNat 8 w
  let given : List Byte := (List.range ((nbits + 7) / 8 - 1)).map fun k => BitVec.ofNat 8 (w >>> (8 * (k + 1)))
  appendCrc (addr :: fc :: given ++ List.replicate (tablePayloadLength fc given - given.length) 0#8)

/-- The instruction the decoder reads from a table word, addressed to the station of `State.reset`. -/
def decodeTableWord (nbits w : Nat) : Option Instr :=
  match decode (tableFrame Config.resetCfg.station nbits w) with
  | .ok i => some i
  | .error _ => none

end Sys2Proof
end

