-- ==== Sys2Proof/Machine/State.lean ====
section
/-! DEFINITION. The state of the block (rule R20), its input and output events (rules R5, R31), the reasons a step can
stop, and the state after reset (rule R35). -/

namespace Sys2Proof.Machine

/-- No rule of the spec stops the block: framing errors are dropped, protocol errors are answered, a rejected
configuration leaves `ConfigFault`, from which `RESET` recovers (rule R300). So there is no fault, and the type has no
constructor. -/
inductive Fault where
deriving DecidableEq, Repr

/-- Why a step has no meaning. -/
inductive Refusal where
  /-- Raised by an arm of `exec` whose instruction has no meaning yet; no arm raises it now. Safe: the step stops. -/
  | notModelled (mnemonic : String)
deriving DecidableEq, Repr

/-- The bus state machine (rule R22). -/
inductive Bus where
  /-- Before the first accepted `RESET`; not in service. -/
  | unconfigured
  /-- A `RESET` supplied an invalid configuration; not in service. -/
  | configFault
  /-- Listening; the next byte starts a frame. -/
  | idleReady
  /-- Discarding bytes until the bus has been silent for `T_IF`. -/
  | idleResync
  /-- A frame is in progress. -/
  | receiving
  /-- A response has been handed over and is not yet flushed. -/
  | transmitting
  /-- Flushed; the DE output is still held at transmit. -/
  | guardWait
deriving DecidableEq, Repr

/-- The logical state of the direction-control output (rule R27). -/
inductive Line where
  /-- `RX`: receive. -/
  | receive
  /-- `TX`: transmit. -/
  | transmit
deriving DecidableEq, Repr

/-- The four tables of the data store (rule R28). -/
inductive Table where
  /-- `CO`, coils. -/
  | co
  /-- `DI`, discrete inputs. -/
  | di
  /-- `HR`, holding registers. -/
  | hr
  /-- `IR`, input registers. -/
  | ir
deriving DecidableEq, Repr

/-- An event of the output trace (rule R31). -/
inductive OutEvent where
  /-- `DE(l)`: the pin was driven to physical level `l`. -/
  | de (level : Bool)
  /-- `TX(b)`: byte `b` was handed to the adapter for transmission. -/
  | tx (b : Byte)
deriving DecidableEq, Repr

/-- An input event (rules R5, R309). -/
inductive Event where
  /-- `RESET(c, t0)` (rule R330). -/
  | reset (c : Cfg) (t0 : Nat)
  /-- `RX(b, t)` (rule R121). -/
  | rx (b : Byte) (t : Nat)
  /-- `TICK(t)` (rule R128). -/
  | tick (t : Nat)
  /-- `TXDONE(t)` (rule R250). -/
  | txdone (t : Nat)
  /-- `RECONFIG(c, t)` (rule R275). -/
  | reconfig (c : Cfg) (t : Nat)
  /-- `HOST_READ(T, a)` (rule R272). -/
  | hostRead (table : Table) (a : Nat)
  /-- `HOST_WRITE(T, a, v)` (rule R273). -/
  | hostWrite (table : Table) (a v : Nat)
deriving DecidableEq, Repr

/-- What the environment is told of the event it delivered last (rules R270, R272). -/
inductive Reply where
  /-- The event was accepted. -/
  | done
  /-- The event was an accepted `HOST_READ`, with this value (rule R272). -/
  | value (v : Nat)
  /-- The event was refused: it had no step (rule R270). -/
  | refused
deriving DecidableEq, Repr

/-- The state. The fields `par`, `inbox`, `reply` and `rejects` are the model's own (log entries 1, 2, 6); all others are
the tuple of rule R20. -/
structure State where
  /-- The instance parameters (rule R7). No step writes them. -/
  par : Params
  /-- `cfg`, the configuration registers (rule R21). -/
  cfg : Cfg
  /-- `T_IC`, the inter-character timeout, µs (rule R21). -/
  tIC : Nat
  /-- `T_IF`, the inter-frame silence threshold, µs (rule R21). -/
  tIF : Nat
  /-- `bus`, the bus state machine (rule R22). -/
  bus : Bus
  /-- `buf`, the frame buffer (rule R23). -/
  buf : List Byte
  /-- `t_last`, the silence reference, µs (rule R24). -/
  tLast : Nat
  /-- `t_flush`, when the last transmission was flushed, µs (rule R25). -/
  tFlush : Nat
  /-- `t_now`, the timestamp of the last timestamped event accepted, µs (rule R26). -/
  tNow : Nat
  /-- `de`, the direction-control output (rule R27). -/
  de : Line
  /-- `CO`, coils (rule R28). -/
  co : Cells 1
  /-- `DI`, discrete inputs (rule R28). -/
  di : Cells 1
  /-- `HR`, holding registers (rule R28). -/
  hr : Cells 16
  /-- `IR`, input registers (rule R28). -/
  ir : Cells 16
  /-- `out`, the output trace (rule R31). -/
  out : List OutEvent
  /-- Input events the environment will deliver, the next one first (rule R5). -/
  inbox : List Event
  /-- What the environment was told of the last event (rules R270, R272). -/
  reply : Option Reply
  /-- How many invalid `RESET`s there were: the index of the free values of rule R35. -/
  rejects : Nat
deriving DecidableEq, Repr

/-- The machine right after `RESET(Config.resetCfg, 0)` was accepted: the middle column of rule R35, with the model's
parameters and record (log entry 3), nothing delivered and nothing told. `T_IC` and `T_IF` are rule R8's values at 9600
baud. -/
def State.reset : State where
  par := Config.resetParams
  cfg := Config.resetCfg
  tIC := 1719
  tIF := 4011
  bus := .idleResync
  buf := []
  tLast := 0
  tFlush := 0
  tNow := 0
  de := .receive
  co := []
  di := []
  hr := []
  ir := []
  out := [.de false]
  inbox := []
  reply := none
  rejects := 0

end Sys2Proof.Machine
end

