-- ==== Sys2Proof/Machine/Flags.lean ====
section
/-! DEFINITION. The block's status. It has no condition codes, error counters or diagnostic registers: its only status
is `bus` and `de` (rule R32), and no function code writes a flag (rule R14). -/

namespace Sys2Proof.Machine

/-- "In service": `bus ∉ {Unconfigured, ConfigFault}` (rules R270, R309). -/
def inService (s : State) : Bool := s.bus != .unconfigured && s.bus != .configFault

/-- The protected transmit window: `bus ∈ {Transmitting, GuardWait}` (rules R249, R255). -/
def inWindow (s : State) : Bool := s.bus == .transmitting || s.bus == .guardWait

/-- The frame with address byte `addr` is for this block: its station address, or broadcast (rules R71, R141). -/
def addressed (s : State) (addr : Byte) : Bool := addr == s.cfg.station || addr == 0#8

end Sys2Proof.Machine
end

