-- ==== Sys2Proof/Machine/Operands.lean ====
section
/-! DEFINITION. The operand forms: the checks of 42_dispatch.md section 2, the quantity limits of rule R9, and the
packing of bits and registers into bytes (rules R55, R180, R181, R203, R204). -/

namespace Sys2Proof.Machine

/-- The three exception codes (rule R301). -/
inductive ExcCode where
  /-- 0x01, illegal function. -/
  | illegalFunction
  /-- 0x02, illegal data address. -/
  | illegalDataAddress
  /-- 0x03, illegal data value. -/
  | illegalDataValue
deriving DecidableEq, Repr

/-- The code byte of an exception response (rules R84, R301). -/
def excByte : ExcCode → Byte
  | .illegalFunction => 0x01#8
  | .illegalDataAddress => 0x02#8
  | .illegalDataValue => 0x03#8

/-- `CHECK_RANGE` (rule R163) against an extent `n`: the sum is in `Nat` (rule R52). -/
def checkRange (n a q : Nat) : Option ExcCode := if a + q > n then some .illegalDataAddress else none

/-- `CHECK_QTY` (rule R164). -/
def checkQty (q lo hi : Nat) : Option ExcCode := if q < lo ∨ q > hi then some .illegalDataValue else none

/-- `CHECK_COIL_VALUE` (rule R164). -/
def checkCoilValue (v : Word) : Option ExcCode :=
  if v ≠ 0xFF00#16 ∧ v ≠ 0x0000#16 then some .illegalDataValue else none

/-- `CHECK_BC` (rule R164). -/
def checkBc (bc expected : Nat) : Option ExcCode := if bc ≠ expected then some .illegalDataValue else none

/-- The first failing check decides (rules R165, R308). -/
def firstFailure : List (Option ExcCode) → Option ExcCode
  | [] => none
  | some c :: _ => some c
  | none :: rest => firstFailure rest

/-- The largest quantity of 0x01 and 0x02 (rule R9). -/
def maxReadBits : Nat := 2000

/-- The largest quantity of 0x03 and 0x04 (rule R9). -/
def maxReadRegs : Nat := 125

/-- The largest quantity of 0x0F (rule R9). -/
def maxWriteBits : Nat := 1968

/-- The largest quantity of 0x10 (rule R9). -/
def maxWriteRegs : Nat := 123

/-- The first `n` bits of a list as a number, the first bit lowest (rule R55). -/
def packByte : Nat → List Bit → Byte
  | 0, _ => 0#8
  | _ + 1, [] => 0#8
  | n + 1, b :: bs => b.setWidth 8 ||| (packByte n bs <<< 1)

/-- `PACK_BITS` (rule R180): byte `j` holds bits `8j` to `8j + 7`; bits the list does not have are 0. -/
def packBits (bits : List Bit) : List Byte :=
  (List.range (ceilDiv bits.length 8)).map fun j => packByte 8 (bits.drop (8 * j))

/-- `PACK_REGS` (rule R181): each value high byte first. -/
def packRegs : List Word → List Byte
  | [] => []
  | v :: vs => hi8 v :: lo8 v :: packRegs vs

/-- `UNPACK_BITS` (rule R204). -/
def unpackBits (data : List Byte) (q : Nat) : List Bit :=
  (List.range q).map fun k => (data.getD (k / 8) 0#8).extractLsb' (k % 8) 1

/-- The `q` register values of a 0x10 request's data, `be16(p, 5 + 2k)` (rule R203). -/
def unpackRegs (data : List Byte) (q : Nat) : List Word :=
  (List.range q).map fun k => be16 (data.getD (2 * k) 0#8) (data.getD (2 * k + 1) 0#8)

/-- The `RS_READ` payload (rule R81): `BC`, then the data bytes. -/
def readPayload (d : List Byte) : List Byte := BitVec.ofNat 8 d.length :: d

/-- The value a coil takes from a legal 0x05 `VALUE` (rule R200). -/
def coilOf (v : Word) : Bit := if v = 0xFF00#16 then 1#1 else 0#1

end Sys2Proof.Machine
end

