-- ==== Sys2Proof/Machine/Timing.lean ====
section
/-! DEFINITION. The timing parameters (rules R7, R8, R276) and the validity of a configuration (rule R279). -/

namespace Sys2Proof.Machine

/-- The bits of one character (rule R8). -/
def charBits : Nat := 11

/-- `tenths / 10` character times at `baud`, in µs, rounded up (rule R8). -/
def charTime (tenths baud : Nat) : Nat := ceilDiv (tenths * charBits * 1000000) (10 * baud)

/-- `T_IC` from the baud rate, unless the instance overrides it (rules R7, R8). -/
def timeoutIC (par : Params) (baud : Nat) : Nat :=
  par.tICOverride.getD (if baud > 19200 then 750 else charTime 15 baud)

/-- `T_IF` from the baud rate, unless the instance overrides it (rules R7, R8). -/
def timeoutIF (par : Params) (baud : Nat) : Nat :=
  par.tIFOverride.getD (if baud > 19200 then 1750 else charTime 35 baud)

/-- `VALID(c)` (rule R279). -/
def validCfg (c : Cfg) : Bool :=
  decide (1 ≤ c.station.toNat) && decide (c.station.toNat ≤ 247) && decide (1 ≤ c.baud) && c.peerPresent

end Sys2Proof.Machine
end

