-- ==== Sys2Proof/Machine/Ops.lean ====
section
/-! DEFINITION. The named operations over the store, the output trace, the transmitter and the reset, among them taking
an exception and returning to listening after one (rules R311, R312). -/

namespace Sys2Proof.Machine

/-! ### The data store (20_memory.md) -/

/-- `T[a]` (rule R12): an unlisted element is zero. -/
def cellRead {w : Nat} : Cells w → Nat → BitVec w
  | [], _ => 0#w
  | (k, v) :: rest, a => if k = a then v else cellRead rest a

/-- `T[a] <- v` (rule R12), keeping the canonical form: zero is not listed. -/
def cellWrite {w : Nat} : Cells w → Nat → BitVec w → Cells w
  | [], a, v => if v = 0#w then [] else [(a, v)]
  | (k, x) :: rest, a, v =>
    if a < k then (if v = 0#w then (k, x) :: rest else (a, v) :: (k, x) :: rest)
    else if a = k then (if v = 0#w then rest else (a, v) :: rest)
    else (k, x) :: cellWrite rest a v

/-- `MemRead(T, a, n)` (rule R12). -/
def memRead {w : Nat} (m : Cells w) : Nat → Nat → List (BitVec w)
  | _, 0 => []
  | a, n + 1 => cellRead m a :: memRead m (a + 1) n

/-- `MemWrite(T, a, n, vs)` with `n = len(vs)` (rule R12). -/
def memWrite {w : Nat} : Cells w → Nat → List (BitVec w) → Cells w
  | m, _, [] => m
  | m, a, v :: vs => memWrite (cellWrite m a v) (a + 1) vs

/-- The canonical form from address `lo` up to, but not at, `hi`: addresses strictly rising, no zero listed. -/
def cellsWf {w : Nat} (lo hi : Nat) : Cells w → Bool
  | [] => true
  | (k, v) :: rest => decide (lo ≤ k) && decide (k < hi) && decide (v ≠ 0#w) && cellsWf (k + 1) hi rest

/-- `N_T` (rules R7, R50). -/
def extent (par : Params) : Table → Nat
  | .co => par.nCO
  | .di => par.nDI
  | .hr => par.nHR
  | .ir => par.nIR

/-- Whether a host value fits the element width of a table (rule R271). -/
def fitsWidth : Table → Nat → Bool
  | .co, v => decide (v ≤ 1)
  | .di, v => decide (v ≤ 1)
  | .hr, v => decide (v ≤ 0xFFFF)
  | .ir, v => decide (v ≤ 0xFFFF)

/-- `T[a]` as a number, for the host (rule R272). -/
def tableRead (s : State) : Table → Nat → Nat
  | .co, a => (cellRead s.co a).toNat
  | .di, a => (cellRead s.di a).toNat
  | .hr, a => (cellRead s.hr a).toNat
  | .ir, a => (cellRead s.ir a).toNat

/-- `T[a] <- v`, for the host (rule R273). -/
def tableWrite (s : State) : Table → Nat → Nat → State
  | .co, a, v => { s with co := cellWrite s.co a (BitVec.ofNat 1 v) }
  | .di, a, v => { s with di := cellWrite s.di a (BitVec.ofNat 1 v) }
  | .hr, a, v => { s with hr := cellWrite s.hr a (BitVec.ofNat 16 v) }
  | .ir, a, v => { s with ir := cellWrite s.ir a (BitVec.ofNat 16 v) }

/-- The four tables are in the model's canonical form (log entry 4) and list nothing at or beyond their extents (rules
R28, R52). -/
def Memory.wf (s : State) : Bool :=
  cellsWf 0 s.par.nCO s.co && cellsWf 0 s.par.nDI s.di && cellsWf 0 s.par.nHR s.hr && cellsWf 0 s.par.nIR s.ir

/-! ### Responses (rule R161) and their frames (45_response_encoder.md) -/

/-- A response value (rule R161). `NoReply` has no constructor: it is the decoder's `malformedLength`. -/
inductive Response where
  /-- `Normal(fc, data)`. -/
  | normal (fc : Byte) (data : List Byte)
  /-- `Exc(fc, code)`. -/
  | exc (fc : Byte) (code : ExcCode)
deriving DecidableEq, Repr

/-- `ENCODE(st, resp)` (rules R230, R84). -/
def encodeResponse (st : Byte) : Response → List Byte
  | .normal fc d => appendCrc (st :: fc :: d)
  | .exc fc c => appendCrc [st, fc ||| 0x80#8, excByte c]

/-! ### The output trace and the transmitter (46_tx_enable.md) -/

/-- `emit(e)` (rule R13). -/
def emit (e : OutEvent) (s : State) : State := { s with out := s.out ++ [e] }

/-- `level(x)`: the physical level of a logical line state (rule R246). -/
def level (c : Cfg) (x : Line) : Bool := (x == .transmit) != c.deInverted

/-- Drive the pin to a logical state and record its level. -/
def driveLine (x : Line) (s : State) : State := emit (.de (level s.cfg x)) { s with de := x }

/-- Hand a frame's bytes to the transmitter in frame order, and enter `Transmitting` (rule R247). -/
def sendBytes (bs : List Byte) (s : State) : State :=
  { s with out := s.out ++ bs.map OutEvent.tx, bus := .transmitting }

/-- `START_TX(bs, t)` (rules R247, R248). -/
def startTx (bs : List Byte) (s : State) : State :=
  sendBytes bs (if s.cfg.dePresent then driveLine .transmit s else s)

/-- The end of `COMPLETE` (rules R140, R144, R231, R233): nothing for a broadcast, else encode and transmit. -/
def deliver (addr : Byte) (r : Response) (s : State) : State :=
  if addr = 0#8 then s else startTx (encodeResponse s.cfg.station r) s

/-- Taking an exception (rules R166, R311): the function has written nothing, and its response goes the way of every
response; a broadcast's is suppressed (rule R307). Nothing is saved. -/
def raiseException (addr fc : Byte) (c : ExcCode) (s : State) : State := deliver addr (.exc fc c) s

/-- `RELEASE()` (rule R253): the end of the guard wait. -/
def release (s : State) : State := { driveLine .receive s with bus := .idleReady }

/-- The return to listening after a response, an exception response among them (rules R250, R251, R252, R312), at
the time `t` of the `TXDONE`. -/
def endTransmission (t : Nat) (s : State) : State :=
  if s.cfg.dePresent then
    let u := { s with tFlush := t, bus := .guardWait }
    if t - u.tFlush ≥ u.par.tGuard then release u else u
  else { s with bus := .idleReady }

/-- Run one function of the opcode map on a request with address byte `addr`: the address filter (rule R141), then the
checks (rule R165), then either the exception (rule R166) or the effect on the store and the normal response
(rule R167). All of it is one step (rule R168). -/
def runFunction (addr fc : Byte) (failure : Option ExcCode) (effect : State → State) (data : List Byte) (s : State) :
    Host.Outcome State Fault Refusal :=
  if addressed s addr then
    match failure with
    | some c => .next (raiseException addr fc c s)
    | none => .next (deliver addr (.normal fc data) (effect s))
  else .next s

/-! ### Reset (rule R330) -/

/-- The part of `RESET(c, t0)` that does not depend on the validity of `c` (rule R330). -/
def clearBlock (t0 : Nat) (s : State) : State :=
  { s with
    buf := [], tLast := t0, tFlush := 0, tNow := t0, de := .receive, out := [],
    co := s.par.initStore.co, di := s.par.initStore.di, hr := s.par.initStore.hr, ir := s.par.initStore.ir }

/-- An invalid `RESET`: `ConfigFault`, with `cfg`, `T_IC` and `T_IF` unspecified (rules R306, R330, R35): free values. -/
def rejectConfig (s : State) : State :=
  { s with
    cfg :=
      { station := Config.freeStation s.rejects, dePresent := Config.freeDePresent s.rejects,
        deInverted := Config.freeDeInverted s.rejects, baud := Config.freeBaud s.rejects,
        peerPresent := Config.freePeerPresent s.rejects },
    tIC := Config.freeTIC s.rejects, tIF := Config.freeTIF s.rejects,
    bus := .configFault, rejects := s.rejects + 1 }

/-- A valid `RESET`: the new configuration, its timing, and the resynchronization wait (rules R330, R332). -/
def acceptConfig (c : Cfg) (s : State) : State :=
  { s with
    cfg := c, tIC := timeoutIC s.par c.baud, tIF := timeoutIF s.par c.baud, bus := .idleResync,
    out := if c.dePresent then s.out ++ [.de (level c .receive)] else s.out }

/-- `RESET(c, t0)` (rule R330). -/
def resetBlock (c : Cfg) (t0 : Nat) (s : State) : State :=
  if validCfg c then acceptConfig c (clearBlock t0 s) else rejectConfig (clearBlock t0 s)

end Sys2Proof.Machine
end

