-- ==== Sys2Proof/Machine/Illegal.lean ====
section
/-! DEFINITION. The default branch of the opcode map (rule R170). -/

namespace Sys2Proof.Machine

/-- `ILLEGAL` (rules R170, R302): exception 0x01, whatever the payload. -/
def execIllegal (addr fc : Byte) (_payload : List Byte) (s : State) : Host.Outcome State Fault Refusal :=
  runFunction addr fc (some .illegalFunction) id [] s

end Sys2Proof.Machine
end

