-- ==== Sys2Proof/Machine/Reads.lean ====
section
/-! DEFINITION. The read functions (43_read_functions.md). None has an effect on the store (rule R186). -/

namespace Sys2Proof.Machine

/-- `RDCO`, function code 0x01 (rule R182). -/
def execRdco (addr : Byte) (start qty : Word) (s : State) : Host.Outcome State Fault Refusal :=
  runFunction addr 0x01#8
    (firstFailure [checkRange s.par.nCO start.toNat qty.toNat, checkQty qty.toNat 1 maxReadBits])
    id (readPayload (packBits (memRead s.co start.toNat qty.toNat))) s

/-- `RDDI`, function code 0x02 (rule R183). -/
def execRddi (addr : Byte) (start qty : Word) (s : State) : Host.Outcome State Fault Refusal :=
  runFunction addr 0x02#8
    (firstFailure [checkRange s.par.nDI start.toNat qty.toNat, checkQty qty.toNat 1 maxReadBits])
    id (readPayload (packBits (memRead s.di start.toNat qty.toNat))) s

/-- `RDHR`, function code 0x03 (rule R184). -/
def execRdhr (addr : Byte) (start qty : Word) (s : State) : Host.Outcome State Fault Refusal :=
  runFunction addr 0x03#8
    (firstFailure [checkRange s.par.nHR start.toNat qty.toNat, checkQty qty.toNat 1 maxReadRegs])
    id (readPayload (packRegs (memRead s.hr start.toNat qty.toNat))) s

/-- `RDIR`, function code 0x04 (rule R185). -/
def execRdir (addr : Byte) (start qty : Word) (s : State) : Host.Outcome State Fault Refusal :=
  runFunction addr 0x04#8
    (firstFailure [checkRange s.par.nIR start.toNat qty.toNat, checkQty qty.toNat 1 maxReadRegs])
    id (readPayload (packRegs (memRead s.ir start.toNat qty.toNat))) s

end Sys2Proof.Machine
end

