-- ==== Sys2Proof/Machine/Writes.lean ====
section
/-! DEFINITION. The write functions (44_write_functions.md). Every check comes before the first write (rule R166). -/

namespace Sys2Proof.Machine

/-- `WRCO`, function code 0x05 (rule R200). -/
def execWrco (addr : Byte) (address value : Word) (s : State) : Host.Outcome State Fault Refusal :=
  runFunction addr 0x05#8
    (firstFailure [checkRange s.par.nCO address.toNat 1, checkCoilValue value])
    (fun u => { u with co := cellWrite u.co address.toNat (coilOf value) })
    (fieldBytes address ++ fieldBytes value) s

/-- `WRHR`, function code 0x06 (rule R201). -/
def execWrhr (addr : Byte) (address value : Word) (s : State) : Host.Outcome State Fault Refusal :=
  runFunction addr 0x06#8
    (firstFailure [checkRange s.par.nHR address.toNat 1])
    (fun u => { u with hr := cellWrite u.hr address.toNat value })
    (fieldBytes address ++ fieldBytes value) s

/-- `WMCO`, function code 0x0F (rule R202). -/
def execWmco (addr : Byte) (start qty : Word) (data : List Byte) (s : State) : Host.Outcome State Fault Refusal :=
  runFunction addr 0x0F#8
    (firstFailure [checkRange s.par.nCO start.toNat qty.toNat, checkQty qty.toNat 1 maxWriteBits,
      checkBc data.length (ceilDiv qty.toNat 8)])
    (fun u => { u with co := memWrite u.co start.toNat (unpackBits data qty.toNat) })
    (fieldBytes start ++ fieldBytes qty) s

/-- `WMHR`, function code 0x10 (rule R203). -/
def execWmhr (addr : Byte) (start qty : Word) (data : List Byte) (s : State) : Host.Outcome State Fault Refusal :=
  runFunction addr 0x10#8
    (firstFailure [checkRange s.par.nHR start.toNat qty.toNat, checkQty qty.toNat 1 maxWriteRegs,
      checkBc data.length (2 * qty.toNat)])
    (fun u => { u with hr := memWrite u.hr start.toNat (unpackRegs data qty.toNat) })
    (fieldBytes start ++ fieldBytes qty) s

end Sys2Proof.Machine
end

