-- ==== Sys2Proof/Machine/Dispatch.lean ====
section
/-! DEFINITION. `DISPATCH` (rule R160): one arm per row of the opcode map (rule R85). -/

namespace Sys2Proof.Machine

def exec (i : Instr) (s : State) : Host.Outcome State Fault Refusal :=
  match i with
  | .rdco addr start qty => Sys2Proof.Machine.execRdco addr start qty s
  | .rddi addr start qty => Sys2Proof.Machine.execRddi addr start qty s
  | .rdhr addr start qty => Sys2Proof.Machine.execRdhr addr start qty s
  | .rdir addr start qty => Sys2Proof.Machine.execRdir addr start qty s
  | .wrco addr address value => Sys2Proof.Machine.execWrco addr address value s
  | .wrhr addr address value => Sys2Proof.Machine.execWrhr addr address value s
  | .wmco addr start qty data => Sys2Proof.Machine.execWmco addr start qty data s
  | .wmhr addr start qty data => Sys2Proof.Machine.execWmhr addr start qty data s
  | .illegal addr fc payload => Sys2Proof.Machine.execIllegal addr fc payload s

end Sys2Proof.Machine
end

