-- ==== Sys2Proof/Machine/Parser.lean ====
section
/-! DEFINITION. The RTU frame parser (41_frame_parser.md): deadlines, the accumulation of bytes, frame completion, and
the events `RX` and `TICK`. An event's outcome is `.next (some s')` when it is accepted and `.next none` when it is
refused, which is the spec's "has no step" (rule R270). -/

namespace Sys2Proof.Machine

/-- Taking the frame out of the buffer (rule R140's first line): the transient `Processing`. -/
def takeFrame (s : State) : State := { s with buf := [], bus := .idleReady }

/-- `COMPLETE(t)` (rule R140): a frame the decoder rejects is dropped (rules R142, R143, R162); every other is
dispatched. -/
def complete (s : State) : Host.Outcome State Fault Refusal :=
  match decode s.buf with
  | .error _ => .next (takeFrame s)
  | .ok i => exec i (takeFrame s)

/-- `ADVANCE(t)` (rules R120, R122, R123, R253). -/
def advance (t : Nat) (s : State) : Host.Outcome State Fault Refusal :=
  match s.bus with
  | .idleResync => .next (if t - s.tLast ≥ s.tIF then { s with bus := .idleReady } else s)
  | .receiving => if t - s.tLast ≥ s.tIF then complete s else .next s
  | .guardWait => .next (if t - s.tFlush ≥ s.par.tGuard then release s else s)
  | .unconfigured => .next s
  | .configFault => .next s
  | .idleReady => .next s
  | .transmitting => .next s

/-- Carry on from a next state; a fault or a refusal ends the step. -/
def andThen (o : Host.Outcome State Fault Refusal) (f : State → Option State) :
    Host.Outcome (Option State) Fault Refusal :=
  match o with
  | .next s => .next (f s)
  | .fault r => .fault r
  | .refused r => .refused r

/-- Drop the frame in progress and wait for the next silence (rules R125, R126). -/
def resync (t : Nat) (s : State) : State := { s with buf := [], tLast := t, bus := .idleResync }

/-- `START_FRAME(b, t)` (rule R124). -/
def startFrame (b : Byte) (t : Nat) (s : State) : State := { s with buf := [b], tLast := t, bus := .receiving }

/-- `ACCUMULATE(b, t)` (rules R124, R125, R126). -/
def accumulate (b : Byte) (t : Nat) (s : State) : State :=
  if t - s.tLast > s.tIC then resync t s
  else if s.buf.length = s.par.maxAdu then resync t s
  else { s with buf := s.buf ++ [b], tLast := t }

/-- The action of `RX(b, t)` on the state its `ADVANCE` left (rules R121, R127, R129). -/
def receiveByte (b : Byte) (t : Nat) (s : State) : State :=
  match s.bus with
  | .idleReady => startFrame b t s
  | .receiving => accumulate b t s
  | .idleResync => { s with tLast := t }
  | .transmitting => s
  | .guardWait => s
  | .unconfigured => s
  | .configFault => s

/-- A timestamped event is accepted in service and in time order (rule R270). -/
def timely (t : Nat) (s : State) : Bool := inService s && decide (s.tNow ≤ t)

/-- `t_now <- t` (rules R26, R270). -/
def setTime (t : Nat) (s : State) : State := { s with tNow := t }

/-- `RX(b, t)` (rule R121). -/
def rxEvent (b : Byte) (t : Nat) (s : State) : Host.Outcome (Option State) Fault Refusal :=
  if timely t s then andThen (advance t (setTime t s)) fun u => some (receiveByte b t u) else .next none

/-- `TICK(t)` (rule R128). -/
def tickEvent (t : Nat) (s : State) : Host.Outcome (Option State) Fault Refusal :=
  if timely t s then andThen (advance t (setTime t s)) some else .next none

end Sys2Proof.Machine
end

