-- ==== Sys2Proof/Machine/Events.lean ====
section
/-! DEFINITION. The events `TXDONE`, `RECONFIG`, `HOST_READ`, `HOST_WRITE` and `RESET` (46_tx_enable.md,
47_host_ports.md, 70_reset_and_hazards.md), the block's transition function over all events, and the driver that takes
the next event from the inbox. -/

namespace Sys2Proof.Machine

/-- `TXDONE(t)` (rules R250, R251, R252, R256). -/
def txdoneEvent (t : Nat) (s : State) : Host.Outcome (Option State) Fault Refusal :=
  if s.bus = .transmitting ∧ s.tNow ≤ t then
    andThen (advance t (setTime t s)) fun u => some (endTransmission t u)
  else .next none

/-- The timing part of `RECONFIG` (rule R276): recomputed only when the baud rate changes. -/
def retime (c : Cfg) (s : State) : State :=
  if c.baud ≠ s.cfg.baud then { s with tIC := timeoutIC s.par c.baud, tIF := timeoutIF s.par c.baud } else s

/-- The own action of an accepted `RECONFIG(c, t)` (rule R275), after its `ADVANCE`. -/
def reconfigure (c : Cfg) (t : Nat) (s : State) : State :=
  let u := retime c s
  let v := { u with cfg := c, buf := [], tLast := t, bus := .idleResync, de := .receive }
  if c.dePresent then emit (.de (level c .receive)) v else v

/-- `RECONFIG(c, t)` (rules R275, R277, R278). -/
def reconfigEvent (c : Cfg) (t : Nat) (s : State) : Host.Outcome (Option State) Fault Refusal :=
  if timely t s && validCfg c then
    andThen (advance t (setTime t s)) fun u => if inWindow u then none else some (reconfigure c t u)
  else .next none

/-- `HOST_READ(T, a)` (rules R271, R272): the value goes to the host. -/
def hostReadEvent (table : Table) (a : Nat) (s : State) : Option State :=
  if inService s && decide (a < extent s.par table) then some { s with reply := some (.value (tableRead s table a)) }
  else none

/-- `HOST_WRITE(T, a, v)` (rules R271, R273). -/
def hostWriteEvent (table : Table) (a v : Nat) (s : State) : Option State :=
  if inService s && decide (a < extent s.par table) && fitsWidth table v then some (tableWrite s table a v) else none

/-- The block's transition function (rules R5, R270): what it does with one event. `.next none` is "no step". -/
def handle (e : Event) (s : State) : Host.Outcome (Option State) Fault Refusal :=
  match e with
  | .reset c t0 => .next (some (resetBlock c t0 s))
  | .rx b t => rxEvent b t s
  | .tick t => tickEvent t s
  | .txdone t => txdoneEvent t s
  | .reconfig c t => reconfigEvent c t s
  | .hostRead table a => .next (hostReadEvent table a s)
  | .hostWrite table a v => .next (hostWriteEvent table a v s)

/-- The state in which an event is handled: it has left the inbox and, unless it is refused, the environment will be
told it was accepted. -/
def popEvent (rest : List Event) (s : State) : State := { s with inbox := rest, reply := some .done }

/-- The state after a refused event: only the environment's two fields differ (rule R270; log entry 6). -/
def refuseEvent (rest : List Event) (s : State) : State := { s with inbox := rest, reply := some .refused }

/-- Take one event (rules R5, R270). -/
def takeEvent (e : Event) (rest : List Event) (s : State) : Host.Outcome State Fault Refusal :=
  match handle e (popEvent rest s) with
  | .next (some u) => .next u
  | .next none => .next (refuseEvent rest s)
  | .fault r => .fault r
  | .refused r => .refused r

/-- One step: the next event of the inbox; with none there, nothing happens (rule R320; log entry 1). -/
def runInbox (s : State) : Host.Outcome State Fault Refusal :=
  match s.inbox with
  | [] => .next s
  | e :: rest => takeEvent e rest s

/-- The state in which the frame of a table word, addressed to this station, stands in the frame buffer as if its
last byte had just arrived, and the next event is the `TICK` that finds the silence over (rules R123, R140). -/
def placeRequest (s : State) (nbits w : Nat) : State :=
  { s with
    bus := .receiving, buf := tableFrame s.cfg.station nbits w, tLast := s.tNow,
    inbox := .tick (s.tNow + s.tIF) :: s.inbox }

end Sys2Proof.Machine
end

