-- ==== Sys2Proof/Machine/Step.lean ====
section
/-! DEFINITION. The step of the machine, and the placing of a request where the next step runs it. -/

namespace Sys2Proof.Machine

/-- One step consumes one input event (rule R5). -/
def step (s : State) : Host.Outcome State Fault Refusal := runInbox s

/-- The state whose very next step runs the instruction of a table word (log entry 5). -/
def State.withFetchWord (s : State) (nbits w : Nat) : State := placeRequest s nbits w

end Sys2Proof.Machine
end

