-- ==== Sys2Proof/Safety.lean ====
section
/-! DEFINITION. The terms the claims are stated in: what a response adds to the trace, which range and which error a
request has, and what holds of every state the block can be in. -/

namespace Sys2Proof.Machine

/-! ### Requests and responses -/

/-- The table and the element range a supported function selects (rule R163). -/
def requestRange : Instr → Option (Table × Nat × Nat)
  | .rdco _ s q => some (.co, s.toNat, q.toNat)
  | .rddi _ s q => some (.di, s.toNat, q.toNat)
  | .rdhr _ s q => some (.hr, s.toNat, q.toNat)
  | .rdir _ s q => some (.ir, s.toNat, q.toNat)
  | .wrco _ a _ => some (.co, a.toNat, 1)
  | .wrhr _ a _ => some (.hr, a.toNat, 1)
  | .wmco _ s q _ => some (.co, s.toNat, q.toNat)
  | .wmhr _ s q _ => some (.hr, s.toNat, q.toNat)
  | .illegal _ _ _ => none

/-- The request's values are legal: the quantity limits of rule R9, the two coil values, the byte count the quantity
requires (rules R164, R304). -/
def valuesLegal : Instr → Bool
  | .rdco _ _ q => decide (1 ≤ q.toNat ∧ q.toNat ≤ 2000)
  | .rddi _ _ q => decide (1 ≤ q.toNat ∧ q.toNat ≤ 2000)
  | .rdhr _ _ q => decide (1 ≤ q.toNat ∧ q.toNat ≤ 125)
  | .rdir _ _ q => decide (1 ≤ q.toNat ∧ q.toNat ≤ 125)
  | .wrco _ _ v => v == 0xFF00#16 || v == 0x0000#16
  | .wrhr _ _ _ => true
  | .wmco _ _ q data => decide (1 ≤ q.toNat ∧ q.toNat ≤ 1968 ∧ data.length = (q.toNat + 7) / 8)
  | .wmhr _ _ q data => decide (1 ≤ q.toNat ∧ q.toNat ≤ 123 ∧ data.length = 2 * q.toNat)
  | .illegal _ _ _ => true

/-- The exception code byte a request earns, by the order of rules R165 and R308: function, range, values. -/
def errorCode (s : State) (i : Instr) : Option Byte :=
  match requestRange i with
  | none => some 0x01#8
  | some (table, a, q) =>
    if a + q > extent s.par table then some 0x02#8 else if valuesLegal i then none else some 0x03#8

/-- What a response frame adds to the trace: the pin at the transmit level, when there is a pin, then the bytes. -/
def responseOutput (s : State) (frame : List Byte) : List OutEvent :=
  (if s.cfg.dePresent then [OutEvent.de (!s.cfg.deInverted)] else []) ++ frame.map OutEvent.tx

/-- The state after a response frame was handed to the transmitter (rules R247, R248). -/
def answered (frame : List Byte) (s : State) : State :=
  { s with
    de := if s.cfg.dePresent then .transmit else s.de
    out := s.out ++ responseOutput s frame
    bus := .transmitting }

/-- The exception response to a request with function code `fc` (rules R84, R301). -/
def exceptionFrame (s : State) (fc code : Byte) : List Byte := appendCrc [s.cfg.station, fc ||| 0x80#8, code]

/-- Byte `j` of the packed elements `start .. start + q - 1` of a bit table: element `start + 8j + i` is bit `i`
(rule R55). -/
def packedByte (m : Cells 1) (start q j : Nat) : Byte :=
  BitVec.ofNat 8 (((List.range 8).map fun i =>
    if 8 * j + i < q then (cellRead m (start + (8 * j + i))).toNat * 2 ^ i else 0).sum)

/-- The same request under another address byte. -/
def retarget (a : Byte) : Instr → Instr
  | .rdco _ s q => .rdco a s q
  | .rddi _ s q => .rddi a s q
  | .rdhr _ s q => .rdhr a s q
  | .rdir _ s q => .rdir a s q
  | .wrco _ x v => .wrco a x v
  | .wrhr _ x v => .wrhr a x v
  | .wmco _ s q d => .wmco a s q d
  | .wmhr _ s q d => .wmhr a s q d
  | .illegal _ c p => .illegal a c p

/-- The timestamp of a timestamped event; `RESET` and the host accesses have none that is checked (rule R270). -/
def eventTime : Event → Option Nat
  | .rx _ t => some t
  | .tick t => some t
  | .txdone t => some t
  | .reconfig _ t => some t
  | .reset _ _ => none
  | .hostRead _ _ => none
  | .hostWrite _ _ _ => none

/-- The event is a `RESET`. -/
def isReset : Event → Bool
  | .reset _ _ => true
  | _ => false

/-- The event is a `HOST_WRITE`. -/
def isHostWrite : Event → Bool
  | .hostWrite _ _ _ => true
  | _ => false

/-- Bytes that follow one received at `prev` closely enough to belong to its frame (rules R123, R124, R126). -/
def inTime (tIC tIF prev : Nat) : List (Byte × Nat) → Prop
  | [] => True
  | (_, t) :: more => prev ≤ t ∧ t - prev ≤ tIC ∧ t - prev < tIF ∧ inTime tIC tIF t more

/-- When the last of some bytes arrived, after one at `prev`. -/
def lastTime (prev : Nat) : List (Byte × Nat) → Nat
  | [] => prev
  | (_, t) :: more => lastTime t more

/-- The state in which an event is acted on that completes the frame in the buffer at time `t`: the event taken from
the inbox, the time advanced, the frame taken out of the buffer. -/
def completing (t : Nat) (rest : List Event) (s : State) : State :=
  { s with inbox := rest, reply := some .done, tNow := t, buf := [], bus := .idleReady }

/-! ### What holds of every state -/

/-- The instance parameters have legal values (rule R7). -/
def ParamsOk (p : Params) : Prop :=
  (p.nCO ≤ 65536 ∧ p.nDI ≤ 65536 ∧ p.nHR ≤ 65536 ∧ p.nIR ≤ 65536) ∧ 4 ≤ p.maxAdu ∧
  (∀ baud, 1 ≤ baud → 1 ≤ timeoutIC p baud ∧ timeoutIC p baud < timeoutIF p baud) ∧
  cellsWf 0 p.nCO p.initStore.co = true ∧ cellsWf 0 p.nDI p.initStore.di = true ∧
  cellsWf 0 p.nHR p.initStore.hr = true ∧ cellsWf 0 p.nIR p.initStore.ir = true

/-- The frame buffer is non-empty exactly while receiving, and never over its capacity (rule R23). -/
def BufferOk (s : State) : Prop :=
  (s.bus = .receiving → 1 ≤ s.buf.length ∧ s.buf.length ≤ s.par.maxAdu) ∧
  (s.bus ≠ .receiving → s.bus ≠ .unconfigured → s.buf = [])

/-- The time registers never run ahead of `t_now` (rule R120). -/
def TimeOk (s : State) : Prop := s.bus ≠ .unconfigured → s.tLast ≤ s.tNow ∧ s.tFlush ≤ s.tNow

/-- With a pin, the line is at transmit exactly in the transmit window; without one it stays at receive, and there is
no guard wait (rules R27, R249, R252). -/
def LineOk (s : State) : Prop :=
  (s.bus ≠ .unconfigured → (s.de = .transmit ↔ inWindow s = true ∧ s.cfg.dePresent = true)) ∧
  (s.bus = .guardWait → s.cfg.dePresent = true)

/-- In service, the configuration is valid and the timing is the one its baud rate gives (rules R21, R276, R279), or the
instance's fixed override (log entry 8). -/
def ConfigOk (s : State) : Prop :=
  inService s = true → validCfg s.cfg = true ∧ s.tIC = timeoutIC s.par s.cfg.baud ∧ s.tIF = timeoutIF s.par s.cfg.baud

/-- The invariant of the block; `Memory.wf` is of the model's own store form (log entry 4). -/
def Invariant (s : State) : Prop :=
  ParamsOk s.par ∧ Memory.wf s = true ∧ BufferOk s ∧ TimeOk s ∧ LineOk s ∧ ConfigOk s

/-- The physical level of the pin as an observer of the trace knows it: the last `DE` event. -/
def pinLevel : List OutEvent → Option Bool
  | [] => none
  | .de l :: rest => some ((pinLevel rest).getD l)
  | .tx _ :: rest => pinLevel rest

/-- In service with a pin, the level last driven is the level of the logical line state (rules R27, R246). -/
def PinFollowsLine (s : State) : Prop :=
  inService s = true → s.cfg.dePresent = true → pinLevel s.out = some (level s.cfg s.de)

/-- The bus states an event may leave, from a given one: the table of rule R146, rows taken after `ADVANCE`
composed with it, and a refused event leaving the state as it was. -/
def allowedNext : Bus → Event → List Bus
  | _, .reset _ _ => [.idleResync, .configFault]
  | b, .hostRead _ _ => [b]
  | b, .hostWrite _ _ _ => [b]
  | .unconfigured, _ => [.unconfigured]
  | .configFault, _ => [.configFault]
  | .idleReady, .rx _ _ => [.idleReady, .receiving]
  | .idleReady, .reconfig _ _ => [.idleReady, .idleResync]
  | .idleReady, _ => [.idleReady]
  | .idleResync, .rx _ _ => [.idleResync, .receiving]
  | .idleResync, .tick _ => [.idleResync, .idleReady]
  | .idleResync, _ => [.idleResync]
  | .receiving, .rx _ _ => [.receiving, .idleResync, .transmitting]
  | .receiving, .tick _ => [.receiving, .idleReady, .transmitting]
  | .receiving, .reconfig _ _ => [.receiving, .idleResync]
  | .receiving, .txdone _ => [.receiving]
  | .transmitting, .txdone _ => [.transmitting, .guardWait, .idleReady]
  | .transmitting, _ => [.transmitting]
  | .guardWait, .rx _ _ => [.guardWait, .receiving]
  | .guardWait, .tick _ => [.guardWait, .idleReady]
  | .guardWait, .reconfig _ _ => [.guardWait, .idleResync]
  | .guardWait, .txdone _ => [.guardWait]

end Sys2Proof.Machine
end

