-- ==== Sys2Proof/Certificates/Slice0/Obligations.lean ====
section
/-! DEFINITION. The statements about the block, for the provers. -/

open Sys2Proof Sys2Proof.Machine

/-! ### CRC-16 -/

/-- Rule R101. -/
def Obligations.CrcCheckValueIs4B37 : Prop :=
  crc16 [0x31#8, 0x32#8, 0x33#8, 0x34#8, 0x35#8, 0x36#8, 0x37#8, 0x38#8, 0x39#8] = 0x4B37#16

/-- Rule R104: an appended CRC validates, and so does every frame the encoder produces. -/
def Obligations.AppendedCrcValidates : Prop :=
  (∀ s : List Byte, crcOk (appendCrc s) = true) ∧ ∀ (st : Byte) (r : Response), crcOk (encodeResponse st r) = true

/-- Rule R105, for every byte of the frame and not only the two of its CRC field: a frame that validates no longer
does when any one byte is changed. -/
def Obligations.OneChangedByteFailsCrc : Prop :=
  ∀ (f : List Byte) (k : Nat) (b : Byte), 2 ≤ f.length → crcOk f = true → k < f.length → f.getD k 0#8 ≠ b →
    crcOk (f.set k b) = false

/-- Test vector V-CRC-13: the CRC over a whole valid frame, its own CRC bytes included, is zero. -/
def Obligations.CrcOverValidFrameIsZero : Prop :=
  ∀ f : List Byte, 2 ≤ f.length → crcOk f = true → crc16 f = 0#16

/-! ### Encoding -/

/-- Every request survives encoding and decoding, with every operand at every value (rules R70, R77 to R79, R85). -/
def Obligations.DecodeOfEncodeIsTheRequest : Prop :=
  ∀ i : Instr, WellFormed i → decode (encode i) = .ok i

/-- Every accepted frame is the encoding of the well-formed request read from it: no bit of it is dropped. -/
def Obligations.EncodeOfDecodeIsTheFrame : Prop :=
  ∀ (f : List Byte) (i : Instr), decode f = .ok i → WellFormed i ∧ encode i = f

/-- Frames of 95_test_vectors.md, byte by byte, and the requests they carry. -/
def Obligations.SampleFramesDecode : Prop :=
  decode [0x11#8, 0x01#8, 0x00#8, 0x13#8, 0x00#8, 0x02#8, 0x4E#8, 0x9E#8] = .ok (.rdco 0x11#8 19#16 2#16) ∧
  decode [0x11#8, 0x04#8, 0x00#8, 0x08#8, 0x00#8, 0x02#8, 0xF2#8, 0x99#8] = .ok (.rdir 0x11#8 8#16 2#16) ∧
  decode [0x11#8, 0x06#8, 0x00#8, 0x09#8, 0x0B#8, 0xB8#8, 0x5C#8, 0x1A#8] = .ok (.wrhr 0x11#8 9#16 0x0BB8#16) ∧
  decode [0x11#8, 0x0F#8, 0x00#8, 0x10#8, 0x00#8, 0x04#8, 0x01#8, 0xFF#8, 0xBE#8, 0x19#8] =
    .ok (.wmco 0x11#8 16#16 4#16 [0xFF#8]) ∧
  decode [0x11#8, 0x07#8, 0x4C#8, 0x22#8] = .ok (.illegal 0x11#8 0x07#8 [])

/-- Rules R142, R143, R162: what the decoder rejects, and as what. Of a frame of at least 4 bytes with a good CRC it
rejects exactly those whose payload does not have the length its supported function code's format asks for. -/
def Obligations.DecoderRejectsExactlyMalformedFrames : Prop :=
  ∀ f : List Byte,
    (decode f = .error .tooShort ↔ f.length < 4) ∧
    (decode f = .error .badCrc ↔ 4 ≤ f.length ∧ crcOk f = false) ∧
    (decode f = .error .malformedLength ↔ 4 ≤ f.length ∧ crcOk f = true ∧
      ((f.getD 1 0#8 ∈ [0x01#8, 0x02#8, 0x03#8, 0x04#8, 0x05#8, 0x06#8] ∧ f.length ≠ 8) ∨
       (f.getD 1 0#8 ∈ [0x0F#8, 0x10#8] ∧ (f.length < 9 ∨ f.length ≠ 9 + (f.getD 6 0#8).toNat))))

/-! ### What each request does (43_read_functions.md, 44_write_functions.md, rule R170) -/

/-- Rules R182, R183: an addressed bit read within the extent and the quantity limit answers the packed elements and
changes nothing but the line, the trace and the bus state. -/
def Obligations.BitReadsAnswerPackedElements : Prop :=
  ∀ (s : State) (addr : Byte) (start qty : Word), addr = s.cfg.station → addr ≠ 0#8 →
    1 ≤ qty.toNat → qty.toNat ≤ 2000 →
    (start.toNat + qty.toNat ≤ s.par.nCO →
      exec (.rdco addr start qty) s = .next (answered (appendCrc (addr :: 0x01#8 ::
        BitVec.ofNat 8 ((qty.toNat + 7) / 8) ::
        (List.range ((qty.toNat + 7) / 8)).map (packedByte s.co start.toNat qty.toNat))) s)) ∧
    (start.toNat + qty.toNat ≤ s.par.nDI →
      exec (.rddi addr start qty) s = .next (answered (appendCrc (addr :: 0x02#8 ::
        BitVec.ofNat 8 ((qty.toNat + 7) / 8) ::
        (List.range ((qty.toNat + 7) / 8)).map (packedByte s.di start.toNat qty.toNat))) s))

/-- Rules R184, R185: an addressed register read within the extent and the quantity limit answers each register high
byte first, and changes nothing but the line, the trace and the bus state. -/
def Obligations.RegisterReadsAnswerBigEndian : Prop :=
  ∀ (s : State) (addr : Byte) (start qty : Word), addr = s.cfg.station → addr ≠ 0#8 →
    1 ≤ qty.toNat → qty.toNat ≤ 125 →
    (start.toNat + qty.toNat ≤ s.par.nHR →
      exec (.rdhr addr start qty) s = .next (answered (appendCrc (addr :: 0x03#8 ::
        BitVec.ofNat 8 (2 * qty.toNat) :: (List.range qty.toNat).flatMap fun k =>
          [hi8 (cellRead s.hr (start.toNat + k)), lo8 (cellRead s.hr (start.toNat + k))])) s)) ∧
    (start.toNat + qty.toNat ≤ s.par.nIR →
      exec (.rdir addr start qty) s = .next (answered (appendCrc (addr :: 0x04#8 ::
        BitVec.ofNat 8 (2 * qty.toNat) :: (List.range qty.toNat).flatMap fun k =>
          [hi8 (cellRead s.ir (start.toNat + k)), lo8 (cellRead s.ir (start.toNat + k))])) s))

/-- Rules R200, R201: an addressed single write writes its one element, leaves every other element of every table, and
echoes the request. -/
def Obligations.SingleWritesWriteAndEcho : Prop :=
  ∀ (s : State) (addr : Byte) (address value : Word), Memory.wf s = true → addr = s.cfg.station → addr ≠ 0#8 →
    (address.toNat < s.par.nCO → value = 0xFF00#16 ∨ value = 0x0000#16 →
      ∃ m : Cells 1, exec (.wrco addr address value) s = .next (answered (appendCrc
          [addr, 0x05#8, hi8 address, lo8 address, hi8 value, lo8 value]) { s with co := m }) ∧
        ∀ a, cellRead m a = if a = address.toNat then (if value = 0xFF00#16 then 1#1 else 0#1) else cellRead s.co a) ∧
    (address.toNat < s.par.nHR →
      ∃ m : Cells 16, exec (.wrhr addr address value) s = .next (answered (appendCrc
          [addr, 0x06#8, hi8 address, lo8 address, hi8 value, lo8 value]) { s with hr := m }) ∧
        ∀ a, cellRead m a = if a = address.toNat then value else cellRead s.hr a)

/-- Rule R202: an addressed 0x0F request that passes its checks writes coil `start + k` from bit `k mod 8` of data byte
`k / 8`, leaves every other element of every table, and answers start and quantity. -/
def Obligations.MultipleCoilsWritten : Prop :=
  ∀ (s : State) (addr : Byte) (start qty : Word) (data : List Byte), Memory.wf s = true → addr = s.cfg.station →
    addr ≠ 0#8 → start.toNat + qty.toNat ≤ s.par.nCO → 1 ≤ qty.toNat → qty.toNat ≤ 1968 →
    data.length = (qty.toNat + 7) / 8 →
      ∃ m : Cells 1, exec (.wmco addr start qty data) s = .next (answered (appendCrc
          [addr, 0x0F#8, hi8 start, lo8 start, hi8 qty, lo8 qty]) { s with co := m }) ∧
        ∀ a, cellRead m a =
          if start.toNat ≤ a ∧ a < start.toNat + qty.toNat then
            BitVec.ofBool ((data.getD ((a - start.toNat) / 8) 0#8).getLsbD ((a - start.toNat) % 8))
          else cellRead s.co a

/-- Rule R203: an addressed 0x10 request that passes its checks writes register `start + k` from data bytes `2k`, the
high one, and `2k + 1`, leaves every other element of every table, and answers start and quantity. -/
def Obligations.MultipleRegistersWritten : Prop :=
  ∀ (s : State) (addr : Byte) (start qty : Word) (data : List Byte), Memory.wf s = true → addr = s.cfg.station →
    addr ≠ 0#8 → start.toNat + qty.toNat ≤ s.par.nHR → 1 ≤ qty.toNat → qty.toNat ≤ 123 →
    data.length = 2 * qty.toNat →
      ∃ m : Cells 16, exec (.wmhr addr start qty data) s = .next (answered (appendCrc
          [addr, 0x10#8, hi8 start, lo8 start, hi8 qty, lo8 qty]) { s with hr := m }) ∧
        ∀ a, cellRead m a =
          if start.toNat ≤ a ∧ a < start.toNat + qty.toNat then
            BitVec.ofNat 16 ((data.getD (2 * (a - start.toNat)) 0#8).toNat * 256 +
              (data.getD (2 * (a - start.toNat) + 1) 0#8).toNat)
          else cellRead s.hr a

/-- Rule R302: a frame for this station with an unsupported function code, whatever its payload, is answered with
exception 0x01 under the request's own address, and changes nothing else. -/
def Obligations.UnsupportedCodeAnswersIllegalFunction : Prop :=
  (∀ (s : State) (addr fc : Byte) (p : List Byte), addr = s.cfg.station → addr ≠ 0#8 →
    exec (.illegal addr fc p) s = .next (answered (appendCrc [addr, fc ||| 0x80#8, 0x01#8]) s)) ∧
  ∀ (s : State) (f : List Byte), 4 ≤ f.length → crcOk f = true → f.getD 0 0#8 = s.cfg.station → s.cfg.station ≠ 0#8 →
    f.getD 1 0#8 ∉ [0x01#8, 0x02#8, 0x03#8, 0x04#8, 0x05#8, 0x06#8, 0x0F#8, 0x10#8] →
    ∃ i, decode f = .ok i ∧
      exec i s = .next (answered (appendCrc [f.getD 0 0#8, f.getD 1 0#8 ||| 0x80#8, 0x01#8]) s)

/-- Rules R303, R304: which exception an addressed request is answered with, range before values, and that a request
with none is answered normally; an exception changes nothing but the line, the trace and the bus state. -/
def Obligations.FirstFailingCheckDecides : Prop :=
  ∀ (s : State) (i : Instr), i.target = s.cfg.station → i.target ≠ 0#8 →
    (∀ c, errorCode s i = some c → exec i s = .next (answered (exceptionFrame s (opcode i) c) s)) ∧
    (errorCode s i = none → ∃ (co : Cells 1) (hr : Cells 16) (d : List Byte),
      exec i s = .next (answered (appendCrc (s.cfg.station :: opcode i :: d)) { s with co := co, hr := hr }))

/-- Rules R144, R205, R307: a broadcast has the addressed form's effect on the store and no other effect; one that
earns an exception has none. -/
def Obligations.BroadcastActsInSilence : Prop :=
  ∀ (s t u : State) (i : Instr), s.cfg.station ≠ 0#8 → exec (retarget 0#8 i) s = .next t →
    exec (retarget s.cfg.station i) s = .next u →
    t = { s with co := u.co, hr := u.hr } ∧ (errorCode s i ≠ none → t = s)

/-- Rule R141: a frame for another station is dropped without dispatch; it touches no element and emits nothing. -/
def Obligations.ForeignAddressChangesNothing : Prop :=
  (∀ (s : State) (i : Instr), i.target ≠ s.cfg.station → i.target ≠ 0#8 → exec i s = .next s) ∧
  ∀ s : State, s.buf.getD 0 0#8 ≠ s.cfg.station → s.buf.getD 0 0#8 ≠ 0#8 →
    complete s = .next { s with buf := [], bus := .idleReady }

/-- Rules R231, R232, R234: whatever a request does, either it sends nothing and leaves line and bus alone, or it hands
over one frame: this station's address first, a good CRC, 5 to 255 bytes. -/
def Obligations.EveryResponseIsAStationFrame : Prop :=
  ∀ (s t : State) (i : Instr), exec i s = .next t →
    t = { s with co := t.co, hr := t.hr } ∨
    ∃ f : List Byte, t = answered f { s with co := t.co, hr := t.hr } ∧ f.head? = some s.cfg.station ∧
      crcOk f = true ∧ 5 ≤ f.length ∧ f.length ≤ 255

/-- Rule R65: registers written by a 0x10 request are what a 0x03 request of the same range then answers. -/
def Obligations.WrittenRegistersReadBack : Prop :=
  ∀ (s t u : State) (addr : Byte) (start qty : Word) (data : List Byte), Memory.wf s = true → addr = s.cfg.station →
    addr ≠ 0#8 → start.toNat + qty.toNat ≤ s.par.nHR → 1 ≤ qty.toNat → qty.toNat ≤ 123 →
    data.length = 2 * qty.toNat → exec (.wmhr addr start qty data) s = .next t → u.hr = t.hr → u.par = s.par →
    u.cfg = s.cfg →
      exec (.rdhr addr start qty) u =
        .next (answered (appendCrc (addr :: 0x03#8 :: BitVec.ofNat 8 (2 * qty.toNat) :: data)) u)

/-- Rule R65 for coils: bits written by a 0x0F request are what a 0x01 request of the same range then answers, when
the unused bits of the last data byte are zero. -/
def Obligations.WrittenCoilsReadBack : Prop :=
  ∀ (s t u : State) (addr : Byte) (start qty : Word) (data : List Byte), Memory.wf s = true → addr = s.cfg.station →
    addr ≠ 0#8 → start.toNat + qty.toNat ≤ s.par.nCO → 1 ≤ qty.toNat → qty.toNat ≤ 1968 →
    data.length = (qty.toNat + 7) / 8 →
    (∀ k, qty.toNat ≤ k → (data.getD (k / 8) 0#8).getLsbD (k % 8) = false) →
    exec (.wmco addr start qty data) s = .next t → u.co = t.co → u.par = s.par → u.cfg = s.cfg →
      exec (.rdco addr start qty) u =
        .next (answered (appendCrc (addr :: 0x01#8 :: BitVec.ofNat 8 data.length :: data)) u)

/-! ### Packing and the store -/

/-- Rules R180, R204: unpacking undoes packing, and registers survive the wire order. -/
def Obligations.UnpackUndoesPack : Prop :=
  (∀ bits : List Bit, unpackBits (packBits bits) bits.length = bits) ∧
  ∀ vs : List Word, unpackRegs (packRegs vs) vs.length = vs

/-- Rule R60: performing the same write twice leaves the same store as performing it once. -/
def Obligations.WriteIsIdempotent : Prop :=
  ∀ (w lo hi a : Nat) (m : Cells w) (vs : List (BitVec w)), cellsWf lo hi m = true →
    memWrite (memWrite m a vs) a vs = memWrite m a vs

/-- The model's store form, its own choice (log entry 4): canonical tables with the same elements are the same data. -/
def Obligations.TablesWithEqualElementsAreEqual : Prop :=
  ∀ (w lo hi : Nat) (m n : Cells w), cellsWf lo hi m = true → cellsWf lo hi n = true →
    (∀ a, cellRead m a = cellRead n a) → m = n

/-! ### The step and the frame parser (41_frame_parser.md)

In the statements about events, the fields `inbox` and `reply` are the model's own way to deliver an event and to tell
what became of it (log entries 1 and 6); every other field is the spec's. -/

/-- A step runs the decoded instruction: the three events whose `ADVANCE` can complete a frame (rules R121, R123, R128,
R140, R275, R277). -/
def Obligations.StepRunsDecodedRequest : Prop :=
  ∀ (s : State) (t : Nat) (rest : List Event) (i : Instr), s.bus = .receiving → s.tNow ≤ t →
    s.tIF ≤ t - s.tLast → decode s.buf = .ok i →
    (s.inbox = .tick t :: rest → step s = exec i (completing t rest s)) ∧
    (∀ b u, s.inbox = .rx b t :: rest → exec i (completing t rest s) = .next u →
      step s = .next (receiveByte b t u)) ∧
    (∀ c u, s.inbox = .reconfig c t :: rest → validCfg c = true → exec i (completing t rest s) = .next u →
      step s = .next (if inWindow u then refuseEvent rest s else reconfigure c t u))

/-- Rules R142, R143, R305: a rejected frame is dropped in silence at the silence that ends it: by a tick; by a byte,
which then starts the next frame (rules R121, R146); by a valid `RECONFIG`, which then reconfigures (rule R275). -/
def Obligations.RejectedFrameIsDroppedInSilence : Prop :=
  ∀ (s : State) (t : Nat) (rest : List Event) (r : Reject), s.bus = .receiving → s.tNow ≤ t →
    s.tIF ≤ t - s.tLast → decode s.buf = .error r →
    (s.inbox = .tick t :: rest → step s = .next { s with
      inbox := rest, reply := some .done, tNow := t, buf := [], bus := .idleReady }) ∧
    (∀ b, s.inbox = .rx b t :: rest → step s = .next { s with
      inbox := rest, reply := some .done, tNow := t, buf := [b], tLast := t, bus := .receiving }) ∧
    (∀ c, s.inbox = .reconfig c t :: rest → validCfg c = true → step s = .next { s with
      inbox := rest, reply := some .done, tNow := t, cfg := c
      tIC := if c.baud = s.cfg.baud then s.tIC else timeoutIC s.par c.baud
      tIF := if c.baud = s.cfg.baud then s.tIF else timeoutIF s.par c.baud
      buf := [], tLast := t, bus := .idleResync, de := .receive
      out := s.out ++ (if c.dePresent then [.de c.deInverted] else []) })

/-- Rule R128: a tick whose deadline has not expired changes nothing but `t_now`. -/
def Obligations.EarlyTickChangesOnlyTime : Prop :=
  ∀ (s : State) (t : Nat) (rest : List Event), inService s = true → s.tNow ≤ t → s.inbox = .tick t :: rest →
    (s.bus = .idleResync ∨ s.bus = .receiving → t - s.tLast < s.tIF) →
    (s.bus = .guardWait → t - s.tFlush < s.par.tGuard) →
    step s = .next { s with inbox := rest, reply := some .done, tNow := t }

/-- Rules R122, R128: a tick that finds the bus silent for `T_IF` ends the resynchronization wait, and does nothing
else. -/
def Obligations.TickAfterSilenceEndsResync : Prop :=
  ∀ (s : State) (t : Nat) (rest : List Event), s.bus = .idleResync → s.tNow ≤ t → s.tIF ≤ t - s.tLast →
    s.inbox = .tick t :: rest →
    step s = .next { s with inbox := rest, reply := some .done, tNow := t, bus := .idleReady }

/-- Rules R124, R125, R126: a byte before the end of the frame in progress joins it, overflows it or breaks it. -/
def Obligations.ByteJoinsOverflowsOrBreaksFrame : Prop :=
  ∀ (s : State) (b : Byte) (t : Nat) (rest : List Event), s.bus = .receiving → s.tNow ≤ t → t - s.tLast < s.tIF →
    s.inbox = .rx b t :: rest →
    (s.tIC < t - s.tLast → step s = .next { s with
      inbox := rest, reply := some .done, tNow := t, buf := [], tLast := t, bus := .idleResync }) ∧
    (t - s.tLast ≤ s.tIC → s.buf.length = s.par.maxAdu → step s = .next { s with
      inbox := rest, reply := some .done, tNow := t, buf := [], tLast := t, bus := .idleResync }) ∧
    (t - s.tLast ≤ s.tIC → s.buf.length ≠ s.par.maxAdu → step s = .next { s with
      inbox := rest, reply := some .done, tNow := t, buf := s.buf ++ [b], tLast := t })

/-- Rules R122, R124, R127: a byte while listening starts a frame after enough silence, else restarts the wait. -/
def Obligations.IdleByteStartsFrameOrRestartsWait : Prop :=
  ∀ (s : State) (b : Byte) (t : Nat) (rest : List Event), s.tNow ≤ t → s.inbox = .rx b t :: rest →
    (s.bus = .idleReady ∨ (s.bus = .idleResync ∧ s.tIF ≤ t - s.tLast) → step s = .next { s with
      inbox := rest, reply := some .done, tNow := t, buf := [b], tLast := t, bus := .receiving }) ∧
    (s.bus = .idleResync → t - s.tLast < s.tIF → step s = .next { s with
      inbox := rest, reply := some .done, tNow := t, tLast := t })

/-- Rules R129, R255: a byte in the protected transmit window has no effect but the time. -/
def Obligations.TransmitWindowDiscardsBytes : Prop :=
  ∀ (s : State) (b : Byte) (t : Nat) (rest : List Event), s.tNow ≤ t → s.inbox = .rx b t :: rest →
    s.bus = .transmitting ∨ (s.bus = .guardWait ∧ t - s.tFlush < s.par.tGuard) →
    step s = .next { s with inbox := rest, reply := some .done, tNow := t }

/-- Rules R123, R124: from `IdleReady`, bytes that follow one another in time, and fit the buffer, are all in the
buffer when the last has been taken: a frame sent in time is received whole. -/
def Obligations.FrameSentInTimeIsReceivedWhole : Prop :=
  ∀ (s : State) (b : Byte) (t : Nat) (more : List (Byte × Nat)) (rest : List Event), s.bus = .idleReady →
    s.tNow ≤ t → inTime s.tIC s.tIF t more → more.length + 1 ≤ s.par.maxAdu →
    s.inbox = .rx b t :: (more.map fun x => Event.rx x.1 x.2) ++ rest →
    Host.Core.run core (more.length + 1) s = .next { s with
      inbox := rest, reply := some .done, tNow := lastTime t more, tLast := lastTime t more
      buf := b :: more.map Prod.fst, bus := .receiving }

/-- Rule R146: the bus states each event can lead to. -/
def Obligations.BusFollowsTransitionTable : Prop :=
  ∀ (s t : State) (e : Event) (rest : List Event), s.inbox = e :: rest → step s = .next t →
    t.bus ∈ allowedNext s.bus e

/-- Rule R310: a byte and a tick with one timestamp give the same end state in either order. -/
def Obligations.ByteAndTickAtOneTimeCommute : Prop :=
  ∀ (s : State) (b : Byte) (t : Nat) (rest : List Event), 0 < s.tIF → s.tNow ≤ t → inService s = true →
    Host.Core.run core 2 { s with inbox := .rx b t :: .tick t :: rest } =
      Host.Core.run core 2 { s with inbox := .tick t :: .rx b t :: rest }

/-! ### The transmitter (46_tx_enable.md) -/

/-- Rules R251, R252, R256: `TXDONE` starts the guard wait, releases at once when there is no guard time, and without a
pin returns to listening. -/
def Obligations.TxdoneEndsTransmission : Prop :=
  ∀ (s : State) (t : Nat) (rest : List Event), s.bus = .transmitting → s.tNow ≤ t → s.inbox = .txdone t :: rest →
    (s.cfg.dePresent = true → 0 < s.par.tGuard → step s = .next { s with
      inbox := rest, reply := some .done, tNow := t, tFlush := t, bus := .guardWait }) ∧
    (s.cfg.dePresent = true → s.par.tGuard = 0 → step s = .next { s with
      inbox := rest, reply := some .done, tNow := t, tFlush := t, de := .receive
      out := s.out ++ [.de s.cfg.deInverted], bus := .idleReady }) ∧
    (s.cfg.dePresent = false → step s = .next { s with
      inbox := rest, reply := some .done, tNow := t, bus := .idleReady })

/-- Rule R253: the first event at or after the guard time releases the pin; a tick only does that, a byte then starts
a frame. -/
def Obligations.GuardEndReleasesPin : Prop :=
  ∀ (s : State) (t : Nat) (rest : List Event), s.bus = .guardWait → s.tNow ≤ t → s.par.tGuard ≤ t - s.tFlush →
    (s.inbox = .tick t :: rest → step s = .next { s with
      inbox := rest, reply := some .done, tNow := t, de := .receive
      out := s.out ++ [.de s.cfg.deInverted], bus := .idleReady }) ∧
    (∀ b, s.inbox = .rx b t :: rest → step s = .next { s with
      inbox := rest, reply := some .done, tNow := t, de := .receive
      out := s.out ++ [.de s.cfg.deInverted], buf := [b], tLast := t, bus := .receiving })

/-- Rule R254: nothing but `TXDONE` and `RESET` ends a transmission, and nothing but the release, which drives the pin
to receive once the guard time is over, and `RESET` ends the guard wait. -/
def Obligations.NoEventAbortsTransmission : Prop :=
  ∀ (s t : State) (e : Event) (rest : List Event), s.inbox = e :: rest → step s = .next t → isReset e = false →
    (s.bus = .transmitting → (∀ t', e ≠ .txdone t') →
      t.bus = .transmitting ∧ t.de = s.de ∧ t.out = s.out) ∧
    (s.bus = .guardWait → (∀ t', eventTime e = some t' → t' - s.tFlush < s.par.tGuard) →
      t.bus = .guardWait ∧ t.de = s.de ∧ t.out = s.out) ∧
    (s.bus = .guardWait → t.bus ≠ .guardWait →
      t.de = .receive ∧ ∃ more, t.out = s.out ++ .de (level s.cfg .receive) :: more)

/-- Rules R31, R231, R247, R253, R257, R275: outside `RESET` the trace only grows: by nothing; by the receive level, from
the transmit window; by the receive level of a `RECONFIG`'s own record, after that of the old one when it ends the guard
wait; or by one whole response frame, its pin event first. -/
def Obligations.TraceGrowsByWholeResponses : Prop :=
  ∀ (s t : State) (e : Event) (rest : List Event), s.inbox = e :: rest → step s = .next t → isReset e = false →
    t.out = s.out ∨
    (inWindow s = true ∧ t.out = s.out ++ [.de (level s.cfg .receive)]) ∨
    (∃ c t', e = .reconfig c t' ∧ c.dePresent = true ∧
      (t.out = s.out ++ [.de (level c .receive)] ∨
       (s.bus = .guardWait ∧ t.out = s.out ++ [.de (level s.cfg .receive), .de (level c .receive)]))) ∨
    ∃ f : List Byte, t.out = s.out ++ responseOutput s f ∧ s.bus = .receiving ∧ t.bus = .transmitting ∧
      f.head? = some s.cfg.station ∧ crcOk f = true ∧ 5 ≤ f.length ∧ f.length ≤ 255

/-! ### Refused events and host ports (47_host_ports.md) -/

/-- Rule R331: out of service, every event but `RESET` is refused: the block is as it was. -/
def Obligations.OutOfServiceOnlyResetIsAccepted : Prop :=
  ∀ (s : State) (e : Event) (rest : List Event), s.bus = .unconfigured ∨ s.bus = .configFault →
    s.inbox = e :: rest → isReset e = false →
    step s = .next { s with inbox := rest, reply := some .refused }

/-- Rule R270: an event with an earlier timestamp, and a `TXDONE` outside `Transmitting`, are refused. -/
def Obligations.UntimelyEventIsRefused : Prop :=
  ∀ (s : State) (e : Event) (rest : List Event), s.inbox = e :: rest →
    ((∃ t, eventTime e = some t ∧ t < s.tNow) ∨ (s.bus ≠ .transmitting ∧ ∃ t, e = .txdone t)) →
    step s = .next { s with inbox := rest, reply := some .refused }

/-- Rule R272: a host read in service and in range returns the element and changes nothing. -/
def Obligations.HostReadReturnsElement : Prop :=
  ∀ (s : State) (table : Table) (a : Nat) (rest : List Event), inService s = true → a < extent s.par table →
    s.inbox = .hostRead table a :: rest →
    step s = .next { s with inbox := rest, reply := some (.value (tableRead s table a)) }

/-- Rule R273: a host write in service, in range and of the table's width writes that one element of that one table,
in every in-service bus state, and nothing else. -/
def Obligations.HostWriteWritesOneElement : Prop :=
  ∀ (s : State) (table : Table) (a v : Nat) (rest : List Event), Memory.wf s = true → inService s = true →
    a < extent s.par table → fitsWidth table v = true → s.inbox = .hostWrite table a v :: rest →
    ∃ t, step s = .next t ∧
      t = { s with inbox := rest, reply := some .done, co := t.co, di := t.di, hr := t.hr, ir := t.ir } ∧
      ∀ (table' : Table) (b : Nat),
        tableRead t table' b = if table' = table ∧ b = a then v else tableRead s table' b

/-- Rule R271: an out-of-range host access and a value too wide for its table are refused. -/
def Obligations.HostAccessOutOfRangeIsRefused : Prop :=
  ∀ (s : State) (table : Table) (a v : Nat) (rest : List Event),
    (extent s.par table ≤ a → s.inbox = .hostRead table a :: rest →
      step s = .next { s with inbox := rest, reply := some .refused }) ∧
    (extent s.par table ≤ a ∨ fitsWidth table v = false → s.inbox = .hostWrite table a v :: rest →
      step s = .next { s with inbox := rest, reply := some .refused })

/-- Rules R275, R276: an accepted `RECONFIG` with no frame to complete and no guard wait to end. -/
def Obligations.ReconfigRestartsListening : Prop :=
  ∀ (s : State) (c : Cfg) (t : Nat) (rest : List Event), s.tNow ≤ t → validCfg c = true →
    s.inbox = .reconfig c t :: rest →
    s.bus = .idleReady ∨ s.bus = .idleResync ∨ (s.bus = .receiving ∧ t - s.tLast < s.tIF) →
    step s = .next { s with
      inbox := rest, reply := some .done, tNow := t, cfg := c
      tIC := if c.baud = s.cfg.baud then s.tIC else timeoutIC s.par c.baud
      tIF := if c.baud = s.cfg.baud then s.tIF else timeoutIF s.par c.baud
      buf := [], tLast := t, bus := .idleResync, de := .receive
      out := s.out ++ (if c.dePresent then [.de c.deInverted] else []) }

/-- Rules R120, R253, R275: a `RECONFIG` that finds the guard time over releases the pin under the old polarity, then
reconfigures. -/
def Obligations.ReconfigAfterGuardReleasesFirst : Prop :=
  ∀ (s : State) (c : Cfg) (t : Nat) (rest : List Event), s.tNow ≤ t → validCfg c = true →
    s.inbox = .reconfig c t :: rest → s.bus = .guardWait → s.par.tGuard ≤ t - s.tFlush →
    step s = .next { s with
      inbox := rest, reply := some .done, tNow := t, cfg := c
      tIC := if c.baud = s.cfg.baud then s.tIC else timeoutIC s.par c.baud
      tIF := if c.baud = s.cfg.baud then s.tIF else timeoutIF s.par c.baud
      buf := [], tLast := t, bus := .idleResync, de := .receive
      out := s.out ++ .de s.cfg.deInverted :: (if c.dePresent then [.de c.deInverted] else []) }

/-- Rules R277, R278: a `RECONFIG` that is invalid, or finds the transmit window, or would complete a frame that is
answered, is refused whole, its `ADVANCE` included. -/
def Obligations.ReconfigRefusedWhole : Prop :=
  ∀ (s : State) (c : Cfg) (t : Nat) (rest : List Event), s.inbox = .reconfig c t :: rest →
    (validCfg c = false ∨ s.bus = .transmitting ∨ (s.bus = .guardWait ∧ t - s.tFlush < s.par.tGuard) ∨
      (s.bus = .receiving ∧ s.tIF ≤ t - s.tLast ∧
        ∃ i, decode s.buf = .ok i ∧ i.target = s.cfg.station ∧ i.target ≠ 0#8)) →
    step s = .next { s with inbox := rest, reply := some .refused }

/-! ### Reset and the whole machine -/

/-- Rule R330: what a valid `RESET` leaves, from every state and at every time. -/
def Obligations.ValidResetLeavesResetValues : Prop :=
  ∀ (s : State) (c : Cfg) (t0 : Nat) (rest : List Event), validCfg c = true → s.inbox = .reset c t0 :: rest →
    step s = .next {
      par := s.par, cfg := c, tIC := timeoutIC s.par c.baud, tIF := timeoutIF s.par c.baud, bus := .idleResync
      buf := [], tLast := t0, tFlush := 0, tNow := t0, de := .receive
      co := s.par.initStore.co, di := s.par.initStore.di, hr := s.par.initStore.hr, ir := s.par.initStore.ir
      out := if c.dePresent then [.de c.deInverted] else []
      inbox := rest, reply := some .done, rejects := s.rejects }

/-- Rules R306, R330: what an invalid `RESET` leaves; `cfg`, `T_IC` and `T_IF` are not said (rule R35). -/
def Obligations.InvalidResetEntersConfigFault : Prop :=
  ∀ (s : State) (c : Cfg) (t0 : Nat) (rest : List Event), validCfg c = false → s.inbox = .reset c t0 :: rest →
    ∃ (cfg : Cfg) (tIC tIF rejects : Nat), step s = .next {
      par := s.par, cfg := cfg, tIC := tIC, tIF := tIF, bus := .configFault
      buf := [], tLast := t0, tFlush := 0, tNow := t0, de := .receive
      co := s.par.initStore.co, di := s.par.initStore.di, hr := s.par.initStore.hr, ir := s.par.initStore.ir
      out := [], inbox := rest, reply := some .done, rejects := rejects }

/-- `State.reset` is what a `RESET` leaves with the parameters and the record the model chose (log entry 3), not the
spec. -/
def Obligations.ResetStateIsAnAcceptedReset : Prop :=
  ∀ s : State, s.par = Config.resetParams → s.inbox = [.reset Config.resetCfg 0] →
    step s = .next { State.reset with reply := some .done, rejects := s.rejects }

/-- No step stops the block (rule R300), and the model reads "has no step" as a step that changes only the environment's
two fields (log entry 6), and an empty inbox as a step that changes nothing (log entry 1). -/
def Obligations.EveryStepAnswersNext : Prop :=
  ∀ s : State, (∃ t, step s = .next t) ∧ (s.inbox = [] → step s = .next s)

/-- Rules R62, R206: no event of the bus writes `DI` or `IR`. -/
def Obligations.BusNeverWritesInputTables : Prop :=
  ∀ (s t : State) (e : Event) (rest : List Event), s.inbox = e :: rest → step s = .next t → isReset e = false →
    isHostWrite e = false → t.di = s.di ∧ t.ir = s.ir

/-- Rule R314: no event of the bus, and no host access, changes the configuration, its timing or the parameters. -/
def Obligations.OnlyHostReconfigures : Prop :=
  ∀ (s t : State) (e : Event) (rest : List Event), s.inbox = e :: rest → step s = .next t →
    t.par = s.par ∧
    (isReset e = false → (∀ c t', e ≠ .reconfig c t') → t.cfg = s.cfg ∧ t.tIC = s.tIC ∧ t.tIF = s.tIF)

/-- Rules R7, R8: at every baud rate of a valid configuration, `1 ≤ T_IC < T_IF`. -/
def Obligations.TimingIsOrderedAtEveryBaud : Prop :=
  ∀ (par : Params) (baud : Nat), par.tICOverride = none → par.tIFOverride = none → 1 ≤ baud →
    1 ≤ timeoutIC par baud ∧ timeoutIC par baud < timeoutIF par baud

/-- The invariants hold in `State.reset`, whose parameters and configuration are the model's choice (log entry 3), as is
the canonical form of its tables (log entry 4). -/
def Obligations.ResetStateSatisfiesInvariant : Prop :=
  Invariant State.reset ∧ PinFollowsLine State.reset

/-- Every step keeps the invariant: legal parameters, tables within their extents, the buffer bound, ordered time
registers, the line at transmit exactly in the transmit window, a valid configuration with its own timing (rules R7,
R21, R23, R27, R28, R120, R249, R276). That the tables are in canonical form is the model's choice (log entry 4), and an
override of a timeout is one fixed value by the model's reading (log entry 8). -/
def Obligations.EveryStepKeepsInvariant : Prop :=
  ∀ s t : State, Invariant s → step s = .next t → Invariant t

/-- Every step keeps the pin at the level of the logical line state (rules R27, R246, R247, R253, R275, R330). -/
def Obligations.EveryStepKeepsPinOnLine : Prop :=
  ∀ s t : State, PinFollowsLine s → step s = .next t → PinFollowsLine t
end

