-- ==== Sys2Proof/Laws/State.lean ====
section
/-! SUPPORT. Each named update of the state, field by field. -/

namespace Sys2Proof.Machine

/-! ### `emit` -/

@[simp] theorem emit_par (e : OutEvent) (s : State) : (emit e s).par = s.par := rfl
@[simp] theorem emit_cfg (e : OutEvent) (s : State) : (emit e s).cfg = s.cfg := rfl
@[simp] theorem emit_tIC (e : OutEvent) (s : State) : (emit e s).tIC = s.tIC := rfl
@[simp] theorem emit_tIF (e : OutEvent) (s : State) : (emit e s).tIF = s.tIF := rfl
@[simp] theorem emit_bus (e : OutEvent) (s : State) : (emit e s).bus = s.bus := rfl
@[simp] theorem emit_buf (e : OutEvent) (s : State) : (emit e s).buf = s.buf := rfl
@[simp] theorem emit_tLast (e : OutEvent) (s : State) : (emit e s).tLast = s.tLast := rfl
@[simp] theorem emit_tFlush (e : OutEvent) (s : State) : (emit e s).tFlush = s.tFlush := rfl
@[simp] theorem emit_tNow (e : OutEvent) (s : State) : (emit e s).tNow = s.tNow := rfl
@[simp] theorem emit_de (e : OutEvent) (s : State) : (emit e s).de = s.de := rfl
@[simp] theorem emit_co (e : OutEvent) (s : State) : (emit e s).co = s.co := rfl
@[simp] theorem emit_di (e : OutEvent) (s : State) : (emit e s).di = s.di := rfl
@[simp] theorem emit_hr (e : OutEvent) (s : State) : (emit e s).hr = s.hr := rfl
@[simp] theorem emit_ir (e : OutEvent) (s : State) : (emit e s).ir = s.ir := rfl
@[simp] theorem emit_out (e : OutEvent) (s : State) : (emit e s).out = s.out ++ [e] := rfl
@[simp] theorem emit_inbox (e : OutEvent) (s : State) : (emit e s).inbox = s.inbox := rfl
@[simp] theorem emit_reply (e : OutEvent) (s : State) : (emit e s).reply = s.reply := rfl
@[simp] theorem emit_rejects (e : OutEvent) (s : State) : (emit e s).rejects = s.rejects := rfl

/-! ### `driveLine` -/

@[simp] theorem driveLine_par (x : Line) (s : State) : (driveLine x s).par = s.par := rfl
@[simp] theorem driveLine_cfg (x : Line) (s : State) : (driveLine x s).cfg = s.cfg := rfl
@[simp] theorem driveLine_tIC (x : Line) (s : State) : (driveLine x s).tIC = s.tIC := rfl
@[simp] theorem driveLine_tIF (x : Line) (s : State) : (driveLine x s).tIF = s.tIF := rfl
@[simp] theorem driveLine_bus (x : Line) (s : State) : (driveLine x s).bus = s.bus := rfl
@[simp] theorem driveLine_buf (x : Line) (s : State) : (driveLine x s).buf = s.buf := rfl
@[simp] theorem driveLine_tLast (x : Line) (s : State) : (driveLine x s).tLast = s.tLast := rfl
@[simp] theorem driveLine_tFlush (x : Line) (s : State) : (driveLine x s).tFlush = s.tFlush := rfl
@[simp] theorem driveLine_tNow (x : Line) (s : State) : (driveLine x s).tNow = s.tNow := rfl
@[simp] theorem driveLine_de (x : Line) (s : State) : (driveLine x s).de = x := rfl
@[simp] theorem driveLine_co (x : Line) (s : State) : (driveLine x s).co = s.co := rfl
@[simp] theorem driveLine_di (x : Line) (s : State) : (driveLine x s).di = s.di := rfl
@[simp] theorem driveLine_hr (x : Line) (s : State) : (driveLine x s).hr = s.hr := rfl
@[simp] theorem driveLine_ir (x : Line) (s : State) : (driveLine x s).ir = s.ir := rfl
@[simp] theorem driveLine_out (x : Line) (s : State) : (driveLine x s).out = s.out ++ [.de (level s.cfg x)] := rfl
@[simp] theorem driveLine_inbox (x : Line) (s : State) : (driveLine x s).inbox = s.inbox := rfl
@[simp] theorem driveLine_reply (x : Line) (s : State) : (driveLine x s).reply = s.reply := rfl
@[simp] theorem driveLine_rejects (x : Line) (s : State) : (driveLine x s).rejects = s.rejects := rfl

/-! ### `sendBytes` -/

@[simp] theorem sendBytes_par (bs : List Byte) (s : State) : (sendBytes bs s).par = s.par := rfl
@[simp] theorem sendBytes_cfg (bs : List Byte) (s : State) : (sendBytes bs s).cfg = s.cfg := rfl
@[simp] theorem sendBytes_tIC (bs : List Byte) (s : State) : (sendBytes bs s).tIC = s.tIC := rfl
@[simp] theorem sendBytes_tIF (bs : List Byte) (s : State) : (sendBytes bs s).tIF = s.tIF := rfl
@[simp] theorem sendBytes_bus (bs : List Byte) (s : State) : (sendBytes bs s).bus = .transmitting := rfl
@[simp] theorem sendBytes_buf (bs : List Byte) (s : State) : (sendBytes bs s).buf = s.buf := rfl
@[simp] theorem sendBytes_tLast (bs : List Byte) (s : State) : (sendBytes bs s).tLast = s.tLast := rfl
@[simp] theorem sendBytes_tFlush (bs : List Byte) (s : State) : (sendBytes bs s).tFlush = s.tFlush := rfl
@[simp] theorem sendBytes_tNow (bs : List Byte) (s : State) : (sendBytes bs s).tNow = s.tNow := rfl
@[simp] theorem sendBytes_de (bs : List Byte) (s : State) : (sendBytes bs s).de = s.de := rfl
@[simp] theorem sendBytes_co (bs : List Byte) (s : State) : (sendBytes bs s).co = s.co := rfl
@[simp] theorem sendBytes_di (bs : List Byte) (s : State) : (sendBytes bs s).di = s.di := rfl
@[simp] theorem sendBytes_hr (bs : List Byte) (s : State) : (sendBytes bs s).hr = s.hr := rfl
@[simp] theorem sendBytes_ir (bs : List Byte) (s : State) : (sendBytes bs s).ir = s.ir := rfl
@[simp] theorem sendBytes_out (bs : List Byte) (s : State) : (sendBytes bs s).out = s.out ++ bs.map OutEvent.tx := rfl
@[simp] theorem sendBytes_inbox (bs : List Byte) (s : State) : (sendBytes bs s).inbox = s.inbox := rfl
@[simp] theorem sendBytes_reply (bs : List Byte) (s : State) : (sendBytes bs s).reply = s.reply := rfl
@[simp] theorem sendBytes_rejects (bs : List Byte) (s : State) : (sendBytes bs s).rejects = s.rejects := rfl

/-! ### `release` -/

@[simp] theorem release_par (s : State) : (release s).par = s.par := rfl
@[simp] theorem release_cfg (s : State) : (release s).cfg = s.cfg := rfl
@[simp] theorem release_tIC (s : State) : (release s).tIC = s.tIC := rfl
@[simp] theorem release_tIF (s : State) : (release s).tIF = s.tIF := rfl
@[simp] theorem release_bus (s : State) : (release s).bus = .idleReady := rfl
@[simp] theorem release_buf (s : State) : (release s).buf = s.buf := rfl
@[simp] theorem release_tLast (s : State) : (release s).tLast = s.tLast := rfl
@[simp] theorem release_tFlush (s : State) : (release s).tFlush = s.tFlush := rfl
@[simp] theorem release_tNow (s : State) : (release s).tNow = s.tNow := rfl
@[simp] theorem release_de (s : State) : (release s).de = .receive := rfl
@[simp] theorem release_co (s : State) : (release s).co = s.co := rfl
@[simp] theorem release_di (s : State) : (release s).di = s.di := rfl
@[simp] theorem release_hr (s : State) : (release s).hr = s.hr := rfl
@[simp] theorem release_ir (s : State) : (release s).ir = s.ir := rfl
@[simp] theorem release_out (s : State) : (release s).out = s.out ++ [.de (level s.cfg .receive)] := rfl
@[simp] theorem release_inbox (s : State) : (release s).inbox = s.inbox := rfl
@[simp] theorem release_reply (s : State) : (release s).reply = s.reply := rfl
@[simp] theorem release_rejects (s : State) : (release s).rejects = s.rejects := rfl

/-! ### `takeFrame` -/

@[simp] theorem takeFrame_par (s : State) : (takeFrame s).par = s.par := rfl
@[simp] theorem takeFrame_cfg (s : State) : (takeFrame s).cfg = s.cfg := rfl
@[simp] theorem takeFrame_tIC (s : State) : (takeFrame s).tIC = s.tIC := rfl
@[simp] theorem takeFrame_tIF (s : State) : (takeFrame s).tIF = s.tIF := rfl
@[simp] theorem takeFrame_bus (s : State) : (takeFrame s).bus = .idleReady := rfl
@[simp] theorem takeFrame_buf (s : State) : (takeFrame s).buf = [] := rfl
@[simp] theorem takeFrame_tLast (s : State) : (takeFrame s).tLast = s.tLast := rfl
@[simp] theorem takeFrame_tFlush (s : State) : (takeFrame s).tFlush = s.tFlush := rfl
@[simp] theorem takeFrame_tNow (s : State) : (takeFrame s).tNow = s.tNow := rfl
@[simp] theorem takeFrame_de (s : State) : (takeFrame s).de = s.de := rfl
@[simp] theorem takeFrame_co (s : State) : (takeFrame s).co = s.co := rfl
@[simp] theorem takeFrame_di (s : State) : (takeFrame s).di = s.di := rfl
@[simp] theorem takeFrame_hr (s : State) : (takeFrame s).hr = s.hr := rfl
@[simp] theorem takeFrame_ir (s : State) : (takeFrame s).ir = s.ir := rfl
@[simp] theorem takeFrame_out (s : State) : (takeFrame s).out = s.out := rfl
@[simp] theorem takeFrame_inbox (s : State) : (takeFrame s).inbox = s.inbox := rfl
@[simp] theorem takeFrame_reply (s : State) : (takeFrame s).reply = s.reply := rfl
@[simp] theorem takeFrame_rejects (s : State) : (takeFrame s).rejects = s.rejects := rfl

/-! ### `resync` -/

@[simp] theorem resync_par (t : Nat) (s : State) : (resync t s).par = s.par := rfl
@[simp] theorem resync_cfg (t : Nat) (s : State) : (resync t s).cfg = s.cfg := rfl
@[simp] theorem resync_tIC (t : Nat) (s : State) : (resync t s).tIC = s.tIC := rfl
@[simp] theorem resync_tIF (t : Nat) (s : State) : (resync t s).tIF = s.tIF := rfl
@[simp] theorem resync_bus (t : Nat) (s : State) : (resync t s).bus = .idleResync := rfl
@[simp] theorem resync_buf (t : Nat) (s : State) : (resync t s).buf = [] := rfl
@[simp] theorem resync_tLast (t : Nat) (s : State) : (resync t s).tLast = t := rfl
@[simp] theorem resync_tFlush (t : Nat) (s : State) : (resync t s).tFlush = s.tFlush := rfl
@[simp] theorem resync_tNow (t : Nat) (s : State) : (resync t s).tNow = s.tNow := rfl
@[simp] theorem resync_de (t : Nat) (s : State) : (resync t s).de = s.de := rfl
@[simp] theorem resync_co (t : Nat) (s : State) : (resync t s).co = s.co := rfl
@[simp] theorem resync_di (t : Nat) (s : State) : (resync t s).di = s.di := rfl
@[simp] theorem resync_hr (t : Nat) (s : State) : (resync t s).hr = s.hr := rfl
@[simp] theorem resync_ir (t : Nat) (s : State) : (resync t s).ir = s.ir := rfl
@[simp] theorem resync_out (t : Nat) (s : State) : (resync t s).out = s.out := rfl
@[simp] theorem resync_inbox (t : Nat) (s : State) : (resync t s).inbox = s.inbox := rfl
@[simp] theorem resync_reply (t : Nat) (s : State) : (resync t s).reply = s.reply := rfl
@[simp] theorem resync_rejects (t : Nat) (s : State) : (resync t s).rejects = s.rejects := rfl

/-! ### `startFrame` -/

@[simp] theorem startFrame_par (b : Byte) (t : Nat) (s : State) : (startFrame b t s).par = s.par := rfl
@[simp] theorem startFrame_cfg (b : Byte) (t : Nat) (s : State) : (startFrame b t s).cfg = s.cfg := rfl
@[simp] theorem startFrame_tIC (b : Byte) (t : Nat) (s : State) : (startFrame b t s).tIC = s.tIC := rfl
@[simp] theorem startFrame_tIF (b : Byte) (t : Nat) (s : State) : (startFrame b t s).tIF = s.tIF := rfl
@[simp] theorem startFrame_bus (b : Byte) (t : Nat) (s : State) : (startFrame b t s).bus = .receiving := rfl
@[simp] theorem startFrame_buf (b : Byte) (t : Nat) (s : State) : (startFrame b t s).buf = [b] := rfl
@[simp] theorem startFrame_tLast (b : Byte) (t : Nat) (s : State) : (startFrame b t s).tLast = t := rfl
@[simp] theorem startFrame_tFlush (b : Byte) (t : Nat) (s : State) : (startFrame b t s).tFlush = s.tFlush := rfl
@[simp] theorem startFrame_tNow (b : Byte) (t : Nat) (s : State) : (startFrame b t s).tNow = s.tNow := rfl
@[simp] theorem startFrame_de (b : Byte) (t : Nat) (s : State) : (startFrame b t s).de = s.de := rfl
@[simp] theorem startFrame_co (b : Byte) (t : Nat) (s : State) : (startFrame b t s).co = s.co := rfl
@[simp] theorem startFrame_di (b : Byte) (t : Nat) (s : State) : (startFrame b t s).di = s.di := rfl
@[simp] theorem startFrame_hr (b : Byte) (t : Nat) (s : State) : (startFrame b t s).hr = s.hr := rfl
@[simp] theorem startFrame_ir (b : Byte) (t : Nat) (s : State) : (startFrame b t s).ir = s.ir := rfl
@[simp] theorem startFrame_out (b : Byte) (t : Nat) (s : State) : (startFrame b t s).out = s.out := rfl
@[simp] theorem startFrame_inbox (b : Byte) (t : Nat) (s : State) : (startFrame b t s).inbox = s.inbox := rfl
@[simp] theorem startFrame_reply (b : Byte) (t : Nat) (s : State) : (startFrame b t s).reply = s.reply := rfl
@[simp] theorem startFrame_rejects (b : Byte) (t : Nat) (s : State) : (startFrame b t s).rejects = s.rejects := rfl

/-! ### `clearBlock` -/

@[simp] theorem clearBlock_par (t : Nat) (s : State) : (clearBlock t s).par = s.par := rfl
@[simp] theorem clearBlock_cfg (t : Nat) (s : State) : (clearBlock t s).cfg = s.cfg := rfl
@[simp] theorem clearBlock_tIC (t : Nat) (s : State) : (clearBlock t s).tIC = s.tIC := rfl
@[simp] theorem clearBlock_tIF (t : Nat) (s : State) : (clearBlock t s).tIF = s.tIF := rfl
@[simp] theorem clearBlock_bus (t : Nat) (s : State) : (clearBlock t s).bus = s.bus := rfl
@[simp] theorem clearBlock_buf (t : Nat) (s : State) : (clearBlock t s).buf = [] := rfl
@[simp] theorem clearBlock_tLast (t : Nat) (s : State) : (clearBlock t s).tLast = t := rfl
@[simp] theorem clearBlock_tFlush (t : Nat) (s : State) : (clearBlock t s).tFlush = 0 := rfl
@[simp] theorem clearBlock_tNow (t : Nat) (s : State) : (clearBlock t s).tNow = t := rfl
@[simp] theorem clearBlock_de (t : Nat) (s : State) : (clearBlock t s).de = .receive := rfl
@[simp] theorem clearBlock_co (t : Nat) (s : State) : (clearBlock t s).co = s.par.initStore.co := rfl
@[simp] theorem clearBlock_di (t : Nat) (s : State) : (clearBlock t s).di = s.par.initStore.di := rfl
@[simp] theorem clearBlock_hr (t : Nat) (s : State) : (clearBlock t s).hr = s.par.initStore.hr := rfl
@[simp] theorem clearBlock_ir (t : Nat) (s : State) : (clearBlock t s).ir = s.par.initStore.ir := rfl
@[simp] theorem clearBlock_out (t : Nat) (s : State) : (clearBlock t s).out = [] := rfl
@[simp] theorem clearBlock_inbox (t : Nat) (s : State) : (clearBlock t s).inbox = s.inbox := rfl
@[simp] theorem clearBlock_reply (t : Nat) (s : State) : (clearBlock t s).reply = s.reply := rfl
@[simp] theorem clearBlock_rejects (t : Nat) (s : State) : (clearBlock t s).rejects = s.rejects := rfl

/-! ### `rejectConfig` -/

@[simp] theorem rejectConfig_par (s : State) : (rejectConfig s).par = s.par := rfl
@[simp] theorem rejectConfig_tIC (s : State) : (rejectConfig s).tIC = Config.freeTIC s.rejects := rfl
@[simp] theorem rejectConfig_tIF (s : State) : (rejectConfig s).tIF = Config.freeTIF s.rejects := rfl
@[simp] theorem rejectConfig_bus (s : State) : (rejectConfig s).bus = .configFault := rfl
@[simp] theorem rejectConfig_buf (s : State) : (rejectConfig s).buf = s.buf := rfl
@[simp] theorem rejectConfig_tLast (s : State) : (rejectConfig s).tLast = s.tLast := rfl
@[simp] theorem rejectConfig_tFlush (s : State) : (rejectConfig s).tFlush = s.tFlush := rfl
@[simp] theorem rejectConfig_tNow (s : State) : (rejectConfig s).tNow = s.tNow := rfl
@[simp] theorem rejectConfig_de (s : State) : (rejectConfig s).de = s.de := rfl
@[simp] theorem rejectConfig_co (s : State) : (rejectConfig s).co = s.co := rfl
@[simp] theorem rejectConfig_di (s : State) : (rejectConfig s).di = s.di := rfl
@[simp] theorem rejectConfig_hr (s : State) : (rejectConfig s).hr = s.hr := rfl
@[simp] theorem rejectConfig_ir (s : State) : (rejectConfig s).ir = s.ir := rfl
@[simp] theorem rejectConfig_out (s : State) : (rejectConfig s).out = s.out := rfl
@[simp] theorem rejectConfig_inbox (s : State) : (rejectConfig s).inbox = s.inbox := rfl
@[simp] theorem rejectConfig_reply (s : State) : (rejectConfig s).reply = s.reply := rfl
@[simp] theorem rejectConfig_rejects (s : State) : (rejectConfig s).rejects = s.rejects + 1 := rfl

/-! ### `acceptConfig` -/

@[simp] theorem acceptConfig_par (c : Cfg) (s : State) : (acceptConfig c s).par = s.par := rfl
@[simp] theorem acceptConfig_cfg (c : Cfg) (s : State) : (acceptConfig c s).cfg = c := rfl
@[simp] theorem acceptConfig_tIC (c : Cfg) (s : State) : (acceptConfig c s).tIC = timeoutIC s.par c.baud := rfl
@[simp] theorem acceptConfig_tIF (c : Cfg) (s : State) : (acceptConfig c s).tIF = timeoutIF s.par c.baud := rfl
@[simp] theorem acceptConfig_bus (c : Cfg) (s : State) : (acceptConfig c s).bus = .idleResync := rfl
@[simp] theorem acceptConfig_buf (c : Cfg) (s : State) : (acceptConfig c s).buf = s.buf := rfl
@[simp] theorem acceptConfig_tLast (c : Cfg) (s : State) : (acceptConfig c s).tLast = s.tLast := rfl
@[simp] theorem acceptConfig_tFlush (c : Cfg) (s : State) : (acceptConfig c s).tFlush = s.tFlush := rfl
@[simp] theorem acceptConfig_tNow (c : Cfg) (s : State) : (acceptConfig c s).tNow = s.tNow := rfl
@[simp] theorem acceptConfig_de (c : Cfg) (s : State) : (acceptConfig c s).de = s.de := rfl
@[simp] theorem acceptConfig_co (c : Cfg) (s : State) : (acceptConfig c s).co = s.co := rfl
@[simp] theorem acceptConfig_di (c : Cfg) (s : State) : (acceptConfig c s).di = s.di := rfl
@[simp] theorem acceptConfig_hr (c : Cfg) (s : State) : (acceptConfig c s).hr = s.hr := rfl
@[simp] theorem acceptConfig_ir (c : Cfg) (s : State) : (acceptConfig c s).ir = s.ir := rfl
@[simp] theorem acceptConfig_out (c : Cfg) (s : State) : (acceptConfig c s).out = if c.dePresent then s.out ++ [.de (level c .receive)] else s.out := rfl
@[simp] theorem acceptConfig_inbox (c : Cfg) (s : State) : (acceptConfig c s).inbox = s.inbox := rfl
@[simp] theorem acceptConfig_reply (c : Cfg) (s : State) : (acceptConfig c s).reply = s.reply := rfl
@[simp] theorem acceptConfig_rejects (c : Cfg) (s : State) : (acceptConfig c s).rejects = s.rejects := rfl

/-! ### `popEvent` -/

@[simp] theorem popEvent_par (rest : List Event) (s : State) : (popEvent rest s).par = s.par := rfl
@[simp] theorem popEvent_cfg (rest : List Event) (s : State) : (popEvent rest s).cfg = s.cfg := rfl
@[simp] theorem popEvent_tIC (rest : List Event) (s : State) : (popEvent rest s).tIC = s.tIC := rfl
@[simp] theorem popEvent_tIF (rest : List Event) (s : State) : (popEvent rest s).tIF = s.tIF := rfl
@[simp] theorem popEvent_bus (rest : List Event) (s : State) : (popEvent rest s).bus = s.bus := rfl
@[simp] theorem popEvent_buf (rest : List Event) (s : State) : (popEvent rest s).buf = s.buf := rfl
@[simp] theorem popEvent_tLast (rest : List Event) (s : State) : (popEvent rest s).tLast = s.tLast := rfl
@[simp] theorem popEvent_tFlush (rest : List Event) (s : State) : (popEvent rest s).tFlush = s.tFlush := rfl
@[simp] theorem popEvent_tNow (rest : List Event) (s : State) : (popEvent rest s).tNow = s.tNow := rfl
@[simp] theorem popEvent_de (rest : List Event) (s : State) : (popEvent rest s).de = s.de := rfl
@[simp] theorem popEvent_co (rest : List Event) (s : State) : (popEvent rest s).co = s.co := rfl
@[simp] theorem popEvent_di (rest : List Event) (s : State) : (popEvent rest s).di = s.di := rfl
@[simp] theorem popEvent_hr (rest : List Event) (s : State) : (popEvent rest s).hr = s.hr := rfl
@[simp] theorem popEvent_ir (rest : List Event) (s : State) : (popEvent rest s).ir = s.ir := rfl
@[simp] theorem popEvent_out (rest : List Event) (s : State) : (popEvent rest s).out = s.out := rfl
@[simp] theorem popEvent_inbox (rest : List Event) (s : State) : (popEvent rest s).inbox = rest := rfl
@[simp] theorem popEvent_reply (rest : List Event) (s : State) : (popEvent rest s).reply = some .done := rfl
@[simp] theorem popEvent_rejects (rest : List Event) (s : State) : (popEvent rest s).rejects = s.rejects := rfl

/-! ### `refuseEvent` -/

@[simp] theorem refuseEvent_par (rest : List Event) (s : State) : (refuseEvent rest s).par = s.par := rfl
@[simp] theorem refuseEvent_cfg (rest : List Event) (s : State) : (refuseEvent rest s).cfg = s.cfg := rfl
@[simp] theorem refuseEvent_tIC (rest : List Event) (s : State) : (refuseEvent rest s).tIC = s.tIC := rfl
@[simp] theorem refuseEvent_tIF (rest : List Event) (s : State) : (refuseEvent rest s).tIF = s.tIF := rfl
@[simp] theorem refuseEvent_bus (rest : List Event) (s : State) : (refuseEvent rest s).bus = s.bus := rfl
@[simp] theorem refuseEvent_buf (rest : List Event) (s : State) : (refuseEvent rest s).buf = s.buf := rfl
@[simp] theorem refuseEvent_tLast (rest : List Event) (s : State) : (refuseEvent rest s).tLast = s.tLast := rfl
@[simp] theorem refuseEvent_tFlush (rest : List Event) (s : State) : (refuseEvent rest s).tFlush = s.tFlush := rfl
@[simp] theorem refuseEvent_tNow (rest : List Event) (s : State) : (refuseEvent rest s).tNow = s.tNow := rfl
@[simp] theorem refuseEvent_de (rest : List Event) (s : State) : (refuseEvent rest s).de = s.de := rfl
@[simp] theorem refuseEvent_co (rest : List Event) (s : State) : (refuseEvent rest s).co = s.co := rfl
@[simp] theorem refuseEvent_di (rest : List Event) (s : State) : (refuseEvent rest s).di = s.di := rfl
@[simp] theorem refuseEvent_hr (rest : List Event) (s : State) : (refuseEvent rest s).hr = s.hr := rfl
@[simp] theorem refuseEvent_ir (rest : List Event) (s : State) : (refuseEvent rest s).ir = s.ir := rfl
@[simp] theorem refuseEvent_out (rest : List Event) (s : State) : (refuseEvent rest s).out = s.out := rfl
@[simp] theorem refuseEvent_inbox (rest : List Event) (s : State) : (refuseEvent rest s).inbox = rest := rfl
@[simp] theorem refuseEvent_reply (rest : List Event) (s : State) : (refuseEvent rest s).reply = some .refused := rfl
@[simp] theorem refuseEvent_rejects (rest : List Event) (s : State) : (refuseEvent rest s).rejects = s.rejects := rfl

/-! ### `answered` -/

@[simp] theorem answered_par (f : List Byte) (s : State) : (answered f s).par = s.par := rfl
@[simp] theorem answered_cfg (f : List Byte) (s : State) : (answered f s).cfg = s.cfg := rfl
@[simp] theorem answered_tIC (f : List Byte) (s : State) : (answered f s).tIC = s.tIC := rfl
@[simp] theorem answered_tIF (f : List Byte) (s : State) : (answered f s).tIF = s.tIF := rfl
@[simp] theorem answered_bus (f : List Byte) (s : State) : (answered f s).bus = .transmitting := rfl
@[simp] theorem answered_buf (f : List Byte) (s : State) : (answered f s).buf = s.buf := rfl
@[simp] theorem answered_tLast (f : List Byte) (s : State) : (answered f s).tLast = s.tLast := rfl
@[simp] theorem answered_tFlush (f : List Byte) (s : State) : (answered f s).tFlush = s.tFlush := rfl
@[simp] theorem answered_tNow (f : List Byte) (s : State) : (answered f s).tNow = s.tNow := rfl
@[simp] theorem answered_de (f : List Byte) (s : State) : (answered f s).de = if s.cfg.dePresent then .transmit else s.de := rfl
@[simp] theorem answered_co (f : List Byte) (s : State) : (answered f s).co = s.co := rfl
@[simp] theorem answered_di (f : List Byte) (s : State) : (answered f s).di = s.di := rfl
@[simp] theorem answered_hr (f : List Byte) (s : State) : (answered f s).hr = s.hr := rfl
@[simp] theorem answered_ir (f : List Byte) (s : State) : (answered f s).ir = s.ir := rfl
@[simp] theorem answered_out (f : List Byte) (s : State) : (answered f s).out = s.out ++ responseOutput s f := rfl
@[simp] theorem answered_inbox (f : List Byte) (s : State) : (answered f s).inbox = s.inbox := rfl
@[simp] theorem answered_reply (f : List Byte) (s : State) : (answered f s).reply = s.reply := rfl
@[simp] theorem answered_rejects (f : List Byte) (s : State) : (answered f s).rejects = s.rejects := rfl

/-! ### `completing` -/

@[simp] theorem completing_par (t : Nat) (rest : List Event) (s : State) : (completing t rest s).par = s.par := rfl
@[simp] theorem completing_cfg (t : Nat) (rest : List Event) (s : State) : (completing t rest s).cfg = s.cfg := rfl
@[simp] theorem completing_tIC (t : Nat) (rest : List Event) (s : State) : (completing t rest s).tIC = s.tIC := rfl
@[simp] theorem completing_tIF (t : Nat) (rest : List Event) (s : State) : (completing t rest s).tIF = s.tIF := rfl
@[simp] theorem completing_bus (t : Nat) (rest : List Event) (s : State) : (completing t rest s).bus = .idleReady := rfl
@[simp] theorem completing_buf (t : Nat) (rest : List Event) (s : State) : (completing t rest s).buf = [] := rfl
@[simp] theorem completing_tLast (t : Nat) (rest : List Event) (s : State) : (completing t rest s).tLast = s.tLast := rfl
@[simp] theorem completing_tFlush (t : Nat) (rest : List Event) (s : State) : (completing t rest s).tFlush = s.tFlush := rfl
@[simp] theorem completing_tNow (t : Nat) (rest : List Event) (s : State) : (completing t rest s).tNow = t := rfl
@[simp] theorem completing_de (t : Nat) (rest : List Event) (s : State) : (completing t rest s).de = s.de := rfl
@[simp] theorem completing_co (t : Nat) (rest : List Event) (s : State) : (completing t rest s).co = s.co := rfl
@[simp] theorem completing_di (t : Nat) (rest : List Event) (s : State) : (completing t rest s).di = s.di := rfl
@[simp] theorem completing_hr (t : Nat) (rest : List Event) (s : State) : (completing t rest s).hr = s.hr := rfl
@[simp] theorem completing_ir (t : Nat) (rest : List Event) (s : State) : (completing t rest s).ir = s.ir := rfl
@[simp] theorem completing_out (t : Nat) (rest : List Event) (s : State) : (completing t rest s).out = s.out := rfl
@[simp] theorem completing_inbox (t : Nat) (rest : List Event) (s : State) : (completing t rest s).inbox = rest := rfl
@[simp] theorem completing_reply (t : Nat) (rest : List Event) (s : State) : (completing t rest s).reply = some .done := rfl
@[simp] theorem completing_rejects (t : Nat) (rest : List Event) (s : State) : (completing t rest s).rejects = s.rejects := rfl

/-! ### `setTime` -/

@[simp] theorem setTime_par (t : Nat) (s : State) : (setTime t s).par = s.par := rfl
@[simp] theorem setTime_cfg (t : Nat) (s : State) : (setTime t s).cfg = s.cfg := rfl
@[simp] theorem setTime_tIC (t : Nat) (s : State) : (setTime t s).tIC = s.tIC := rfl
@[simp] theorem setTime_tIF (t : Nat) (s : State) : (setTime t s).tIF = s.tIF := rfl
@[simp] theorem setTime_bus (t : Nat) (s : State) : (setTime t s).bus = s.bus := rfl
@[simp] theorem setTime_buf (t : Nat) (s : State) : (setTime t s).buf = s.buf := rfl
@[simp] theorem setTime_tLast (t : Nat) (s : State) : (setTime t s).tLast = s.tLast := rfl
@[simp] theorem setTime_tFlush (t : Nat) (s : State) : (setTime t s).tFlush = s.tFlush := rfl
@[simp] theorem setTime_tNow (t : Nat) (s : State) : (setTime t s).tNow = t := rfl
@[simp] theorem setTime_de (t : Nat) (s : State) : (setTime t s).de = s.de := rfl
@[simp] theorem setTime_co (t : Nat) (s : State) : (setTime t s).co = s.co := rfl
@[simp] theorem setTime_di (t : Nat) (s : State) : (setTime t s).di = s.di := rfl
@[simp] theorem setTime_hr (t : Nat) (s : State) : (setTime t s).hr = s.hr := rfl
@[simp] theorem setTime_ir (t : Nat) (s : State) : (setTime t s).ir = s.ir := rfl
@[simp] theorem setTime_out (t : Nat) (s : State) : (setTime t s).out = s.out := rfl
@[simp] theorem setTime_inbox (t : Nat) (s : State) : (setTime t s).inbox = s.inbox := rfl
@[simp] theorem setTime_reply (t : Nat) (s : State) : (setTime t s).reply = s.reply := rfl
@[simp] theorem setTime_rejects (t : Nat) (s : State) : (setTime t s).rejects = s.rejects := rfl

end Sys2Proof.Machine
end

