-- ==== Sys2Proof/Laws/Store.lean ====
section
/-! SUPPORT. The store: reading after writing, and the canonical form, which every operation keeps. -/

namespace Sys2Proof.Machine

theorem cellsWf_mono {w : Nat} {lo lo' hi : Nat} (h : lo' ≤ lo) : ∀ {m : Cells w}, cellsWf lo hi m = true →
    cellsWf lo' hi m = true
  | [], _ => rfl
  | (k, v) :: rest, hm => by
    simp only [cellsWf, Bool.and_eq_true, decide_eq_true_eq] at hm ⊢
    exact ⟨⟨⟨by omega, hm.1.1.2⟩, hm.1.2⟩, hm.2⟩

/-- An element below every listed address reads as zero. -/
theorem cellRead_of_lt {w : Nat} {hi : Nat} : ∀ {m : Cells w} {lo a : Nat}, cellsWf lo hi m = true → a < lo →
    cellRead m a = 0#w
  | [], _, _, _, _ => rfl
  | (k, v) :: rest, lo, a, hm, ha => by
    simp only [cellsWf, Bool.and_eq_true, decide_eq_true_eq] at hm
    have hk : ¬ k = a := by omega
    simp only [cellRead, hk, if_false]
    exact cellRead_of_lt hm.2 (by omega)

/-- An element at or beyond the bound of the canonical form reads as zero. -/
theorem cellRead_of_ge {w : Nat} {hi a : Nat} (ha : hi ≤ a) : ∀ {m : Cells w} {lo : Nat}, cellsWf lo hi m = true →
    cellRead m a = 0#w
  | [], _, _ => rfl
  | (k, v) :: rest, lo, hm => by
    simp only [cellsWf, Bool.and_eq_true, decide_eq_true_eq] at hm
    have hk : ¬ k = a := by omega
    simp only [cellRead, hk, if_false]
    exact cellRead_of_ge ha hm.2

/-- What one write does to every read (rules R12, R60). -/
theorem cellRead_cellWrite {w : Nat} {hi : Nat} (a : Nat) (v : BitVec w) (b : Nat) : ∀ {m : Cells w} {lo : Nat},
    cellsWf lo hi m = true → cellRead (cellWrite m a v) b = if b = a then v else cellRead m b
  | [], _, _ => by
    by_cases hb : b = a
    · by_cases hv : v = 0#w <;> simp [cellWrite, cellRead, hv, hb]
    · have hab : ¬ a = b := fun h => hb h.symm
      by_cases hv : v = 0#w <;> simp [cellWrite, cellRead, hv, hb, hab]
  | (k, x) :: rest, lo, hm => by
    simp only [cellsWf, Bool.and_eq_true, decide_eq_true_eq] at hm
    have ih := cellRead_cellWrite a v b hm.2
    have hlow : ∀ c, c < k + 1 → cellRead rest c = 0#w := fun c hc => cellRead_of_lt hm.2 hc
    by_cases h1 : a < k
    · by_cases hv : v = 0#w
      · by_cases hb : b = a
        · have hk : ¬ k = b := by omega
          simp [cellWrite, h1, hv, cellRead, hb, hlow a (by omega)]
          omega
        · simp [cellWrite, h1, hv, hb]
      · by_cases hb : b = a
        · simp [cellWrite, h1, hv, cellRead, hb]
        · have hab : ¬ a = b := fun h => hb h.symm
          simp [cellWrite, h1, hv, cellRead, hb, hab]
    · by_cases h2 : a = k
      · subst h2
        by_cases hv : v = 0#w
        · by_cases hb : b = a
          · simp [cellWrite, hv, hb, hlow a (by omega)]
          · have hab : ¬ a = b := fun h => hb h.symm
            simp [cellWrite, hv, hb, cellRead, hab]
        · by_cases hb : b = a
          · simp [cellWrite, hv, cellRead, hb]
          · have hab : ¬ a = b := fun h => hb h.symm
            simp [cellWrite, hv, cellRead, hb, hab]
      · simp only [cellWrite, h1, h2, if_false, cellRead, ih]
        by_cases hkb : k = b
        · have : ¬ b = a := by omega
          simp [hkb, this]
        · simp [hkb]

/-- A write inside the bounds keeps the canonical form. -/
theorem cellsWf_cellWrite {w : Nat} {hi a : Nat} (v : BitVec w) (ha : a < hi) : ∀ {m : Cells w} {lo : Nat}, lo ≤ a →
    cellsWf lo hi m = true → cellsWf lo hi (cellWrite m a v) = true
  | [], lo, hl, _ => by
    by_cases hv : v = 0#w <;> simp [cellWrite, hv, cellsWf, hl, ha]
  | (k, x) :: rest, lo, hl, hm => by
    have hm' := hm
    simp only [cellsWf, Bool.and_eq_true, decide_eq_true_eq] at hm
    by_cases h1 : a < k
    · by_cases hv : v = 0#w
      · simp [cellWrite, h1, hv, hm']
      · simp only [cellWrite, h1, hv, if_true, if_false, cellsWf, Bool.and_eq_true, decide_eq_true_eq]
        exact ⟨⟨⟨hl, ha⟩, hv⟩, ⟨⟨by omega, hm.1.1.2⟩, hm.1.2⟩, hm.2⟩
    · by_cases h2 : a = k
      · by_cases hv : v = 0#w
        · simpa [cellWrite, h2, hv] using cellsWf_mono (by omega) hm.2
        · subst h2
          simp only [cellWrite, hv, if_true, if_false, cellsWf, Bool.and_eq_true, decide_eq_true_eq, lt_irrefl]
          exact ⟨⟨⟨hl, ha⟩, hv⟩, hm.2⟩
      · simp only [cellWrite, h1, h2, if_false, cellsWf, Bool.and_eq_true, decide_eq_true_eq]
        exact ⟨hm.1, cellsWf_cellWrite v ha (by omega) hm.2⟩

/-- A multi-element write inside the bounds keeps the canonical form (rules R12, R52). -/
theorem cellsWf_memWrite {w : Nat} {hi : Nat} : ∀ (vs : List (BitVec w)) {m : Cells w} {a : Nat}, a + vs.length ≤ hi →
    cellsWf 0 hi m = true → cellsWf 0 hi (memWrite m a vs) = true
  | [], _, _, _, hm => hm
  | v :: vs, m, a, ha, hm => by
    simp only [List.length_cons] at ha
    exact cellsWf_memWrite vs (by omega) (cellsWf_cellWrite v (by omega) (Nat.zero_le a) hm)

@[simp] theorem memRead_length {w : Nat} (m : Cells w) (n : Nat) : ∀ a, (memRead m a n).length = n := by
  induction n with
  | zero => exact fun _ => rfl
  | succ n ih => intro a; simp [memRead, ih]

/-- `MemRead` element by element (rule R12). -/
theorem memRead_getElem? {w : Nat} (m : Cells w) (n : Nat) : ∀ a k, (memRead m a n)[k]? =
    if k < n then some (cellRead m (a + k)) else none := by
  induction n with
  | zero => intro a k; simp [memRead]
  | succ n ih =>
    intro a k
    cases k with
    | zero => simp [memRead]
    | succ k => simp [memRead, ih, Nat.add_comm, Nat.add_left_comm]

/-- A host write inside the extent keeps every table's canonical form (rule R273). -/
theorem memory_wf_tableWrite {s : State} {table : Table} {a v : Nat} (ha : a < extent s.par table)
    (h : Memory.wf s = true) : Memory.wf (tableWrite s table a v) = true := by
  simp only [Memory.wf, Bool.and_eq_true] at h ⊢
  cases table with
  | co => exact ⟨⟨⟨cellsWf_cellWrite _ ha (Nat.zero_le a) h.1.1.1, h.1.1.2⟩, h.1.2⟩, h.2⟩
  | di => exact ⟨⟨⟨h.1.1.1, cellsWf_cellWrite _ ha (Nat.zero_le a) h.1.1.2⟩, h.1.2⟩, h.2⟩
  | hr => exact ⟨⟨⟨h.1.1.1, h.1.1.2⟩, cellsWf_cellWrite _ ha (Nat.zero_le a) h.1.2⟩, h.2⟩
  | ir => exact ⟨⟨⟨h.1.1.1, h.1.1.2⟩, h.1.2⟩, cellsWf_cellWrite _ ha (Nat.zero_le a) h.2⟩

/-- The reset store has the canonical form. -/
theorem reset_memory_wf : Memory.wf State.reset = true := rfl

end Sys2Proof.Machine
end

