-- ==== Sys2Proof/Laws/Ops.lean ====
section
/-! SUPPORT. For each shared operation, what it can do, said once. -/

namespace Sys2Proof.Machine

/-- The first failing check, for two checks (rule R165). -/
@[simp] theorem firstFailure_pair (a b : Option ExcCode) : firstFailure [a, b] = a.or b := by
  cases a <;> cases b <;> rfl

/-- The first failing check, for one check (rule R165). -/
@[simp] theorem firstFailure_single (a : Option ExcCode) : firstFailure [a] = a := by
  cases a <;> rfl

/-- The first failing check, for three checks (rule R165). -/
@[simp] theorem firstFailure_triple (a b c : Option ExcCode) : firstFailure [a, b, c] = (a.or b).or c := by
  cases a <;> cases b <;> cases c <;> rfl

/-- The levels of rule R246. -/
theorem level_transmit (c : Cfg) : level c .transmit = !c.deInverted := by
  cases h : c.deInverted <;> simp [level, h]

/-- The levels of rule R246. -/
theorem level_receive (c : Cfg) : level c .receive = c.deInverted := by
  cases h : c.deInverted <;> simp [level, h]

/-- `START_TX` with and without a pin (rules R247, R248). -/
theorem startTx_eq_answered (bs : List Byte) (s : State) : startTx bs s = answered bs s := by
  cases h : s.cfg.dePresent <;>
    simp [startTx, answered, responseOutput, h, sendBytes, driveLine, emit, level_transmit]

/-- A broadcast is never answered (rules R144, R233). -/
theorem deliver_broadcast (r : Response) (s : State) : deliver 0#8 r s = s := by
  simp [deliver]

/-- Every other request is (rules R140, R231). -/
theorem deliver_addressed {addr : Byte} (h : addr ≠ 0#8) (r : Response) (s : State) :
    deliver addr r s = answered (encodeResponse s.cfg.station r) s := by
  simp [deliver, h, startTx_eq_answered]

/-- Taking an exception (rules R166, R307, R311). -/
theorem raiseException_cases (addr fc : Byte) (c : ExcCode) (s : State) :
    (addr = 0#8 ∧ raiseException addr fc c s = s) ∨
    (addr ≠ 0#8 ∧ raiseException addr fc c s = answered (exceptionFrame s fc (excByte c)) s) := by
  by_cases h : addr = 0#8
  · exact .inl ⟨h, by rw [raiseException, h, deliver_broadcast]⟩
  · exact .inr ⟨h, by rw [raiseException, deliver_addressed h]; rfl⟩

/-- Everything a function can do (rules R141, R166, R167): it always answers a next state. -/
theorem runFunction_cases {addr fc : Byte} {failure : Option ExcCode} {effect : State → State} {data : List Byte}
    {s : State} {o : Host.Outcome State Fault Refusal} (h : runFunction addr fc failure effect data s = o) :
    (addressed s addr = false ∧ o = .next s) ∨
    (addressed s addr = true ∧ ∃ c, failure = some c ∧ o = .next (raiseException addr fc c s)) ∨
    (addressed s addr = true ∧ failure = none ∧ o = .next (deliver addr (.normal fc data) (effect s))) := by
  subst h
  cases ha : addressed s addr with
  | false => exact .inl ⟨rfl, by simp [runFunction, ha]⟩
  | true =>
    cases failure with
    | some c => exact .inr (.inl ⟨rfl, c, rfl, by simp [runFunction, ha]⟩)
    | none => exact .inr (.inr ⟨rfl, rfl, by simp [runFunction, ha]⟩)

/-- No function stops (rule R300). -/
theorem runFunction_next (addr fc : Byte) (failure : Option ExcCode) (effect : State → State) (data : List Byte)
    (s : State) : ∃ t, runFunction addr fc failure effect data s = .next t := by
  rcases runFunction_cases (rfl : runFunction addr fc failure effect data s = _) with ⟨-, h⟩ | ⟨-, c, -, h⟩ | ⟨-, -, h⟩
  · exact ⟨_, h⟩
  · exact ⟨_, h⟩
  · exact ⟨_, h⟩

/-- No request stops the block (rule R300). -/
theorem exec_next (i : Instr) (s : State) : ∃ t, exec i s = .next t := by
  cases i <;>
    simp only [exec, execRdco, execRddi, execRdhr, execRdir, execWrco, execWrhr, execWmco, execWmhr, execIllegal] <;>
    exact runFunction_next ..

/-- The end of a transmission (rules R251, R252). -/
theorem endTransmission_cases (t : Nat) (s : State) :
    (s.cfg.dePresent = false ∧ endTransmission t s = { s with bus := .idleReady }) ∨
    (s.cfg.dePresent = true ∧ s.par.tGuard = 0 ∧
      endTransmission t s = release { s with tFlush := t, bus := .guardWait }) ∨
    (s.cfg.dePresent = true ∧ 0 < s.par.tGuard ∧ endTransmission t s = { s with tFlush := t, bus := .guardWait }) := by
  cases h : s.cfg.dePresent with
  | false => exact .inl ⟨rfl, by simp [endTransmission, h]⟩
  | true =>
    by_cases hg : s.par.tGuard = 0
    · exact .inr (.inl ⟨rfl, hg, by simp [endTransmission, h, hg]⟩)
    · exact .inr (.inr ⟨rfl, by omega, by simp [endTransmission, h, hg]⟩)

/-- The two ends of `RESET` (rule R330). -/
theorem resetBlock_cases (c : Cfg) (t0 : Nat) (s : State) :
    (validCfg c = true ∧ resetBlock c t0 s = acceptConfig c (clearBlock t0 s)) ∨
    (validCfg c = false ∧ resetBlock c t0 s = rejectConfig (clearBlock t0 s)) := by
  cases h : validCfg c with
  | true => exact .inl ⟨rfl, by simp [resetBlock, h]⟩
  | false => exact .inr ⟨rfl, by simp [resetBlock, h]⟩

/-- `State.reset` is what an accepted `RESET` leaves, from any state of the same instance (rule R35). -/
theorem reset_eq_resetBlock {s : State} (hp : s.par = Config.resetParams) :
    { resetBlock Config.resetCfg 0 s with inbox := [], reply := none, rejects := 0 } = State.reset := by
  obtain ⟨par, cfg, tIC, tIF, bus, buf, tLast, tFlush, tNow, de, co, di, hr, ir, out, inbox, reply, rejects⟩ := s
  subst hp
  rfl

end Sys2Proof.Machine
end

