-- ==== Sys2Proof/Laws/Events.lean ====
section
/-! SUPPORT. What frame completion, the deadlines, the events and the step can do, said once. -/

namespace Sys2Proof.Machine

/-- Frame completion: dropped, or run (rules R140, R142, R143, R162). -/
theorem complete_cases (s : State) :
    (∃ r, decode s.buf = .error r ∧ complete s = .next (takeFrame s)) ∨
    (∃ i, decode s.buf = .ok i ∧ complete s = exec i (takeFrame s)) := by
  cases h : decode s.buf with
  | error r => exact .inl ⟨r, rfl, by simp [complete, h]⟩
  | ok i => exact .inr ⟨i, rfl, by simp [complete, h]⟩

/-- Frame completion always answers a next state. -/
theorem complete_next (s : State) : ∃ t, complete s = .next t := by
  rcases complete_cases s with ⟨r, -, h⟩ | ⟨i, -, h⟩
  · exact ⟨_, h⟩
  · exact h ▸ exec_next i _

/-- Everything `ADVANCE` can do (rules R120, R122, R123, R253). -/
theorem advance_cases (t : Nat) (s : State) :
    (s.bus = .idleResync ∧ s.tIF ≤ t - s.tLast ∧ advance t s = .next { s with bus := .idleReady }) ∨
    (s.bus = .receiving ∧ s.tIF ≤ t - s.tLast ∧ advance t s = complete s) ∨
    (s.bus = .guardWait ∧ s.par.tGuard ≤ t - s.tFlush ∧ advance t s = .next (release s)) ∨
    (advance t s = .next s ∧ (s.bus = .idleResync → t - s.tLast < s.tIF) ∧
      (s.bus = .receiving → t - s.tLast < s.tIF) ∧ (s.bus = .guardWait → t - s.tFlush < s.par.tGuard)) := by
  cases hb : s.bus with
  | idleResync =>
    by_cases h : s.tIF ≤ t - s.tLast
    · exact .inl ⟨rfl, h, by simp [advance, hb, h]⟩
    · exact .inr (.inr (.inr ⟨by simp [advance, hb, h], by simp; omega⟩))
  | receiving =>
    by_cases h : s.tIF ≤ t - s.tLast
    · exact .inr (.inl ⟨rfl, h, by simp [advance, hb, h]⟩)
    · exact .inr (.inr (.inr ⟨by simp [advance, hb, h], by simp; omega⟩))
  | guardWait =>
    by_cases h : s.par.tGuard ≤ t - s.tFlush
    · exact .inr (.inr (.inl ⟨rfl, h, by simp [advance, hb, h]⟩))
    · exact .inr (.inr (.inr ⟨by simp [advance, hb, h], by simp; omega⟩))
  | unconfigured => exact .inr (.inr (.inr ⟨by simp [advance, hb], by simp⟩))
  | configFault => exact .inr (.inr (.inr ⟨by simp [advance, hb], by simp⟩))
  | idleReady => exact .inr (.inr (.inr ⟨by simp [advance, hb], by simp⟩))
  | transmitting => exact .inr (.inr (.inr ⟨by simp [advance, hb], by simp⟩))

/-- `ADVANCE` always answers a next state. -/
theorem advance_next (t : Nat) (s : State) : ∃ u, advance t s = .next u := by
  rcases advance_cases t s with ⟨-, -, h⟩ | ⟨-, -, h⟩ | ⟨-, -, h⟩ | ⟨h, -⟩
  · exact ⟨_, h⟩
  · exact h ▸ complete_next s
  · exact ⟨_, h⟩
  · exact ⟨_, h⟩

/-- Everything the accumulation of a byte can do (rules R124, R125, R126). -/
theorem accumulate_cases (b : Byte) (t : Nat) (s : State) :
    (s.tIC < t - s.tLast ∧ accumulate b t s = resync t s) ∨
    (t - s.tLast ≤ s.tIC ∧ s.buf.length = s.par.maxAdu ∧ accumulate b t s = resync t s) ∨
    (t - s.tLast ≤ s.tIC ∧ s.buf.length ≠ s.par.maxAdu ∧
      accumulate b t s = { s with buf := s.buf ++ [b], tLast := t }) := by
  by_cases hg : s.tIC < t - s.tLast
  · exact .inl ⟨hg, by simp [accumulate, hg]⟩
  · by_cases hl : s.buf.length = s.par.maxAdu
    · exact .inr (.inl ⟨by omega, hl, by simp [accumulate, hl]⟩)
    · exact .inr (.inr ⟨by omega, hl, by simp [accumulate, hg, hl]⟩)

/-- What carrying on after a next state gives. -/
@[simp] theorem andThen_next (s : State) (f : State → Option State) : andThen (.next s) f = .next (f s) := rfl

/-- A timestamped event is timely in service and in time order (rule R270). -/
theorem timely_eq_true {t : Nat} {s : State} : timely t s = true ↔ inService s = true ∧ s.tNow ≤ t := by
  rw [timely, Bool.and_eq_true, decide_eq_true_iff]

/-- Everything an accepted event can do, event by event (rules R121, R128, R250, R272, R273, R275, R330). -/
theorem handle_cases {e : Event} {s u : State} (h : handle e s = .next (some u)) :
    match e with
    | .reset c t0 => u = resetBlock c t0 s
    | .rx b t => inService s = true ∧ s.tNow ≤ t ∧ ∃ v, advance t (setTime t s) = .next v ∧ u = receiveByte b t v
    | .tick t => inService s = true ∧ s.tNow ≤ t ∧ advance t (setTime t s) = .next u
    | .txdone t => s.bus = .transmitting ∧ s.tNow ≤ t ∧ u = endTransmission t (setTime t s)
    | .reconfig c t => inService s = true ∧ s.tNow ≤ t ∧ validCfg c = true ∧
        ∃ v, advance t (setTime t s) = .next v ∧ inWindow v = false ∧ u = reconfigure c t v
    | .hostRead table a => inService s = true ∧ a < extent s.par table ∧
        u = { s with reply := some (.value (tableRead s table a)) }
    | .hostWrite table a v => inService s = true ∧ a < extent s.par table ∧ fitsWidth table v = true ∧
        u = tableWrite s table a v := by
  cases e with
  | reset c t0 => exact (Option.some.inj (Host.Outcome.next.inj h)).symm
  | rx b t =>
    obtain ⟨v, hv⟩ := advance_next t (setTime t s)
    simp only [handle, rxEvent, hv, andThen_next] at h
    split at h
    · next ht => exact ⟨(timely_eq_true.1 ht).1, (timely_eq_true.1 ht).2, v, hv, by simpa using h.symm⟩
    · simp at h
  | tick t =>
    obtain ⟨v, hv⟩ := advance_next t (setTime t s)
    simp only [handle, tickEvent, hv, andThen_next] at h
    split at h
    · next ht =>
      have : v = u := by simpa using h
      exact ⟨(timely_eq_true.1 ht).1, (timely_eq_true.1 ht).2, this ▸ hv⟩
    · simp at h
  | txdone t =>
    simp only [handle, txdoneEvent] at h
    split at h
    · next ht =>
      have hv : advance t (setTime t s) = .next (setTime t s) := by simp [advance, ht.1]
      rw [hv, andThen_next] at h
      exact ⟨ht.1, ht.2, by simpa using h.symm⟩
    · simp at h
  | reconfig c t =>
    obtain ⟨v, hv⟩ := advance_next t (setTime t s)
    simp only [handle, reconfigEvent, hv, andThen_next] at h
    split at h
    · next ht =>
      obtain ⟨ht, hc⟩ := Bool.and_eq_true_iff.1 ht
      split at h
      · simp at h
      · next hw =>
        exact ⟨(timely_eq_true.1 ht).1, (timely_eq_true.1 ht).2, hc, v, hv, by simpa using hw, by simpa using h.symm⟩
    · simp at h
  | hostRead table a =>
    simp only [handle, hostReadEvent] at h
    split at h
    · next ht => simp only [Bool.and_eq_true, decide_eq_true_iff] at ht; exact ⟨ht.1, ht.2, by simpa using h.symm⟩
    · simp at h
  | hostWrite table a v =>
    simp only [handle, hostWriteEvent] at h
    split at h
    · next ht =>
      simp only [Bool.and_eq_true, decide_eq_true_iff] at ht
      exact ⟨ht.1.1, ht.1.2, ht.2, by simpa using h.symm⟩
    · simp at h

/-- A step takes the next event, or does nothing (rules R5, R320). -/
theorem step_cases (s : State) :
    (s.inbox = [] ∧ step s = .next s) ∨
    (∃ e rest, s.inbox = e :: rest ∧ step s = takeEvent e rest s) := by
  cases h : s.inbox with
  | nil => exact .inl ⟨rfl, by simp [step, runInbox, h]⟩
  | cons e rest => exact .inr ⟨e, rest, rfl, by simp [step, runInbox, h]⟩

/-- An event is accepted or refused (rule R270). -/
theorem takeEvent_cases {e : Event} {rest : List Event} {s u : State} (h : takeEvent e rest s = .next u) :
    handle e (popEvent rest s) = .next (some u) ∨ (handle e (popEvent rest s) = .next none ∧ u = refuseEvent rest s) := by
  unfold takeEvent at h
  split at h
  · next u' hu =>
    have : u' = u := by simpa using h
    exact .inl (this ▸ hu)
  · next hn =>
    have : refuseEvent rest s = u := by simpa using h
    exact .inr ⟨hn, this.symm⟩
  · cases h
  · cases h

end Sys2Proof.Machine
end

