-- ==== Sys2Proof/Laws/PerInstr.lean ====
section
/-! SUPPORT. What is shown of every instruction as syntax, one lemma per constructor. -/

namespace Sys2Proof.Laws

open Sys2Proof.Machine

/-- The frame of a request begins with its address byte and its function code, and has the 4 bytes of rule R70 beside
its payload. -/
def FrameShape.Statement (i : Instr) : Prop :=
  (encode i).take 2 = [i.target, opcode i] ∧ (encode i).length = (payload i).length + 4

theorem FrameShape.of (i : Instr) : FrameShape.Statement i := by
  refine ⟨rfl, ?_⟩
  simp [encode, appendCrc]

theorem FrameShape.rdco (a : Byte) (s q : Word) : FrameShape.Statement (.rdco a s q) := FrameShape.of _
theorem FrameShape.rddi (a : Byte) (s q : Word) : FrameShape.Statement (.rddi a s q) := FrameShape.of _
theorem FrameShape.rdhr (a : Byte) (s q : Word) : FrameShape.Statement (.rdhr a s q) := FrameShape.of _
theorem FrameShape.rdir (a : Byte) (s q : Word) : FrameShape.Statement (.rdir a s q) := FrameShape.of _
theorem FrameShape.wrco (a : Byte) (x v : Word) : FrameShape.Statement (.wrco a x v) := FrameShape.of _
theorem FrameShape.wrhr (a : Byte) (x v : Word) : FrameShape.Statement (.wrhr a x v) := FrameShape.of _
theorem FrameShape.wmco (a : Byte) (s q : Word) (d : List Byte) : FrameShape.Statement (.wmco a s q d) :=
  FrameShape.of _
theorem FrameShape.wmhr (a : Byte) (s q : Word) (d : List Byte) : FrameShape.Statement (.wmhr a s q d) :=
  FrameShape.of _
theorem FrameShape.illegal (a c : Byte) (p : List Byte) : FrameShape.Statement (.illegal a c p) := FrameShape.of _

end Sys2Proof.Laws
end

