-- ==== Sys2Proof/Tests/Slice0.lean ====
section
/-! SUPPORT. Tests with expected values from 95_test_vectors.md (each names its vector), and for every statement that
has hypotheses a concrete state and operands that meet them. -/

namespace Sys2Proof.Tests

open Sys2Proof Sys2Proof.Machine

-- One theorem at a time: a kernel `decide` that waits for the theorems before it holds a thread.
set_option Elab.async false

/-! ### Small states -/

/-- The store `S0` (95_test_vectors.md section 0.4). -/
def storeS0 : Store where
  co := memWrite [] 0 [1, 0, 1, 1, 0, 0, 1, 1, 1, 1, 0, 1, 0, 1, 1, 0, 1, 0, 1, 0]
  di := memWrite [] 0 [0, 0, 1, 1, 0, 1, 0, 1, 1, 1, 0, 1, 1, 0, 1, 1, 1, 0, 1, 0]
  hr := memWrite [] 0 [0x0000, 0x0001, 0x1234, 0xFFFF, 0x8000, 0x00FF, 0xAAAA, 0x5555, 0x0102, 0xFEDC]
  ir := memWrite [] 0 [10, 20, 30, 40, 50, 60, 70, 80, 90, 100]

/-- The instance of the vectors on `S0` (section 0.3). -/
def parS0 : Params := { Config.resetParams with nCO := 20, nDI := 20, nHR := 10, nIR := 10, initStore := storeS0 }

/-- The instance of the vectors on `S1` (section 0.5): every element zero. -/
def parS1 : Params := { Config.resetParams with nCO := 2100, nDI := 2100, nHR := 200, nIR := 200 }

/-- The record `CA` (section 0.2); `CP` is `Config.resetCfg`. -/
def cfgCA : Cfg := { Config.resetCfg with dePresent := false }

/-- `IdleReady` at 5000, with an empty trace and the instance's store. -/
def ready (p : Params) (c : Cfg) : State :=
  { State.reset with
    par := p, cfg := c, bus := .idleReady, tNow := 5000, out := []
    co := p.initStore.co, di := p.initStore.di, hr := p.initStore.hr, ir := p.initStore.ir }

/-- A frame in the buffer whose last byte came at 17000. -/
def received (p : Params) (c : Cfg) (f : List Byte) : State :=
  { ready p c with bus := .receiving, buf := f, tLast := 17000, tNow := 17000, inbox := [.tick 21011] }

/-- The guard wait of a pin that was flushed at 30000. -/
def guarding : State :=
  { ready parS0 Config.resetCfg with bus := .guardWait, de := .transmit, tFlush := 30000, tNow := 30000 }

/-- The same state with these events to come. -/
def given (s : State) (es : List Event) : State := { s with inbox := es }

/-- The state after one step. -/
def after (s : State) : State :=
  match step s with
  | .next t => t
  | .fault _ => s
  | .refused _ => s

/-- The trace after one frame, run as section 0.6 runs it. -/
def answer (p : Params) (f : List Byte) : List OutEvent := (after (received p cfgCA f)).out

/-- The bytes of a response, as the trace shows them without a pin. -/
def sent (f : List Byte) : List OutEvent := f.map OutEvent.tx

/-- The step answers a next state. -/
def completes (s : State) : Bool :=
  match step s with
  | .next _ => true
  | .fault _ => false
  | .refused _ => false

theorem next_of_completes {s : State} (h : completes s = true) : ∃ t, step s = .next t := by
  unfold completes at h
  split at h
  · exact ⟨_, by assumption⟩
  · cases h
  · cases h

/-! ### Well-formedness -/

theorem test_wellformed_refuses_256_coil_bytes :
    illFormed (.wmco 0x11#8 0 0 (List.replicate 256 0)) = some .byteCountTooLarge := by decide +kernel
theorem test_wellformed_refuses_256_register_bytes :
    illFormed (.wmhr 0x11#8 0 0 (List.replicate 256 0)) = some .byteCountTooLarge := by decide +kernel
theorem test_wellformed_refuses_supported_code_as_illegal :
    illFormed (.illegal 0x11#8 0x10#8 []) = some .supportedCode := by decide +kernel

/-! ### Decoding, one frame written out for each constructor -/

/-- V-RD-8. -/
theorem test_decode_rdco : decode [0x11, 0x01, 0xFF, 0xFF, 0x00, 0x02, 0xBF, 0x7F] = .ok (.rdco 0x11 0xFFFF 2) := by
  decide +kernel
/-- V-RD-11. -/
theorem test_decode_rddi : decode [0x11, 0x02, 0x00, 0x0A, 0x00, 0x0B, 0x1B, 0x5F] = .ok (.rddi 0x11 10 11) := by
  decide +kernel
/-- V-RD-12. -/
theorem test_decode_rdhr : decode [0x11, 0x03, 0x00, 0x02, 0x00, 0x03, 0xA6, 0x9B] = .ok (.rdhr 0x11 2 3) := by
  decide +kernel
/-- V-RD-19. -/
theorem test_decode_rdir : decode [0x11, 0x04, 0x00, 0x0A, 0x00, 0x01, 0x13, 0x58] = .ok (.rdir 0x11 10 1) := by
  decide +kernel
/-- V-WR-3. -/
theorem test_decode_wrco : decode [0x11, 0x05, 0x00, 0x04, 0x12, 0x34, 0x83, 0xEC] = .ok (.wrco 0x11 4 0x1234) := by
  decide +kernel
/-- V-BC-1. -/
theorem test_decode_wrhr : decode [0x00, 0x06, 0x00, 0x00, 0x43, 0x21, 0x79, 0x33] = .ok (.wrhr 0 0 0x4321) := by
  decide +kernel
/-- V-WR-10. -/
theorem test_decode_wmco : decode [0x11, 0x0F, 0x00, 0x00, 0x00, 0x0A, 0x02, 0xCD, 0x01, 0xBD, 0xA8] =
    .ok (.wmco 0x11 0 10 [0xCD, 0x01]) := by decide +kernel
/-- V-WR-16. -/
theorem test_decode_wmhr :
    decode [0x11, 0x10, 0x00, 0x09, 0x00, 0x02, 0x04, 0x00, 0x01, 0x00, 0x02, 0xB7, 0x04] =
      .ok (.wmhr 0x11 9 2 [0x00, 0x01, 0x00, 0x02]) := by decide +kernel
/-- V-EX-5. -/
theorem test_decode_illegal : decode [0x11, 0x2B, 0x0E, 0x01, 0x00, 0xB1, 0xB4] =
    .ok (.illegal 0x11 0x2B [0x0E, 0x01, 0x00]) := by decide +kernel
/-- V-WR-19: `BC` says 4, three data bytes follow. -/
theorem test_decode_malformed : decode [0x11, 0x10, 0x00, 0x00, 0x00, 0x02, 0x04, 0x00, 0x01, 0x00, 0x94, 0xF7] =
    .error .malformedLength := by decide +kernel
/-- A table word of one byte: the rest of the payload is zero. -/
theorem test_decodeTableWord : decodeTableWord 8 0x0F = some (.wmco 0x11 0 0 []) ∧
    decodeTableWord 40 0x0200090003 = some (.rdhr 0x11 9 2) := by decide +kernel

/-! ### One step for each instruction -/

/-- V-RD-3. -/
theorem test_rdco_packs : answer parS0 [0x11, 0x01, 0x00, 0x00, 0x00, 0x14, 0x3E, 0x95] =
    sent [0x11, 0x01, 0x03, 0xCD, 0x6B, 0x05, 0x40, 0x12] := by decide +kernel
/-- V-RD-7. -/
theorem test_rdco_range_first : answer parS0 [0x11, 0x01, 0x00, 0x15, 0x00, 0x00, 0x2F, 0x5E] =
    sent [0x11, 0x81, 0x02, 0xC0, 0x54] := by decide +kernel
/-- V-RD-9. -/
theorem test_rddi_packs : answer parS0 [0x11, 0x02, 0x00, 0x02, 0x00, 0x08, 0xDA, 0x9C] =
    sent [0x11, 0x02, 0x01, 0xEB, 0xE5, 0x07] := by decide +kernel
/-- V-RD-22. -/
theorem test_rddi_limit : answer parS1 [0x11, 0x02, 0x00, 0x00, 0x07, 0xD1, 0xB8, 0xF6] =
    sent [0x11, 0x82, 0x03, 0x01, 0x64] := by decide +kernel
/-- V-RD-12. -/
theorem test_rdhr_big_endian : answer parS0 [0x11, 0x03, 0x00, 0x02, 0x00, 0x03, 0xA6, 0x9B] =
    sent [0x11, 0x03, 0x06, 0x12, 0x34, 0xFF, 0xFF, 0x80, 0x00, 0x3F, 0xE7] := by decide +kernel
/-- V-RD-17 and V-RD-24: one frame, two extents. -/
theorem test_rdhr_check_order :
    answer parS0 [0x11, 0x03, 0x00, 0x00, 0x00, 0x7E, 0xC7, 0x7A] = sent [0x11, 0x83, 0x02, 0xC1, 0x34] ∧
    answer parS1 [0x11, 0x03, 0x00, 0x00, 0x00, 0x7E, 0xC7, 0x7A] = sent [0x11, 0x83, 0x03, 0x00, 0xF4] := by
  decide +kernel
/-- V-RD-18. -/
theorem test_rdir_reads : answer parS0 [0x11, 0x04, 0x00, 0x08, 0x00, 0x02, 0xF2, 0x99] =
    sent [0x11, 0x04, 0x04, 0x00, 0x5A, 0x00, 0x64, 0xCB, 0xBD] := by decide +kernel
/-- V-RD-19. -/
theorem test_rdir_range : answer parS0 [0x11, 0x04, 0x00, 0x0A, 0x00, 0x01, 0x13, 0x58] =
    sent [0x11, 0x84, 0x02, 0xC3, 0x04] := by decide +kernel
/-- V-WR-1. -/
theorem test_wrco_on : after (received parS0 cfgCA [0x11, 0x05, 0x00, 0x04, 0xFF, 0x00, 0xCF, 0x6B]) =
    { ready parS0 cfgCA with
      co := memWrite storeS0.co 4 [1], bus := .transmitting, tLast := 17000, tNow := 21011, reply := some .done
      out := sent [0x11, 0x05, 0x00, 0x04, 0xFF, 0x00, 0xCF, 0x6B] } := by decide +kernel
/-- V-WR-4. -/
theorem test_wrco_value : answer parS0 [0x11, 0x05, 0x00, 0x04, 0x00, 0xFF, 0xCE, 0xDB] =
    sent [0x11, 0x85, 0x03, 0x03, 0x54] := by decide +kernel
/-- V-WR-7. -/
theorem test_wrhr_writes : answer parS0 [0x11, 0x06, 0x00, 0x09, 0x0B, 0xB8, 0x5C, 0x1A] =
    sent [0x11, 0x06, 0x00, 0x09, 0x0B, 0xB8, 0x5C, 0x1A] ∧
    tableRead (after (received parS0 cfgCA [0x11, 0x06, 0x00, 0x09, 0x0B, 0xB8, 0x5C, 0x1A])) .hr 9 = 0x0BB8 := by
  decide +kernel
/-- V-BC-1. -/
theorem test_wrhr_broadcast : after (received parS0 cfgCA [0x00, 0x06, 0x00, 0x00, 0x43, 0x21, 0x79, 0x33]) =
    { ready parS0 cfgCA with
      hr := memWrite storeS0.hr 0 [0x4321], tLast := 17000, tNow := 21011, reply := some .done } := by decide +kernel
/-- V-WR-11. -/
theorem test_wmco_padding : after (received parS0 cfgCA [0x11, 0x0F, 0x00, 0x10, 0x00, 0x04, 0x01, 0xFF, 0xBE, 0x19]) =
    { ready parS0 cfgCA with
      co := memWrite storeS0.co 16 [1, 1, 1, 1], bus := .transmitting, tLast := 17000, tNow := 21011
      reply := some .done, out := sent [0x11, 0x0F, 0x00, 0x10, 0x00, 0x04, 0x57, 0x5D] } := by decide +kernel
/-- V-WR-13. -/
theorem test_wmco_byte_count : answer parS0 [0x11, 0x0F, 0x00, 0x00, 0x00, 0x0A, 0x01, 0xCD, 0x9F, 0xCC] =
    sent [0x11, 0x8F, 0x03, 0x05, 0xF4] := by decide +kernel
/-- V-WR-15. -/
theorem test_wmhr_writes :
    after (received parS0 cfgCA [0x11, 0x10, 0x00, 0x01, 0x00, 0x02, 0x04, 0x00, 0x0A, 0x01, 0x02, 0xC6, 0xF0]) =
    { ready parS0 cfgCA with
      hr := memWrite storeS0.hr 1 [0x000A, 0x0102], bus := .transmitting, tLast := 17000, tNow := 21011
      reply := some .done, out := sent [0x11, 0x10, 0x00, 0x01, 0x00, 0x02, 0x12, 0x98] } := by decide +kernel
/-- V-WR-16: no partial write. -/
theorem test_wmhr_range :
    after (received parS0 cfgCA [0x11, 0x10, 0x00, 0x09, 0x00, 0x02, 0x04, 0x00, 0x01, 0x00, 0x02, 0xB7, 0x04]) =
    { ready parS0 cfgCA with
      bus := .transmitting, tLast := 17000, tNow := 21011, reply := some .done
      out := sent [0x11, 0x90, 0x02, 0xCC, 0x04] } := by decide +kernel
/-- V-EX-2. -/
theorem test_illegal_payload_ignored : answer parS0 [0x11, 0x07, 0x01, 0x02, 0x03, 0xC9, 0xD6] =
    sent [0x11, 0x87, 0x01, 0x83, 0xF5] := by decide +kernel
/-- V-EX-4. -/
theorem test_illegal_high_bit : answer parS0 [0x11, 0x83, 0x00, 0x00, 0x00, 0x01, 0x87, 0x44] =
    sent [0x11, 0x83, 0x01, 0x81, 0x35] := by decide +kernel
/-- A table word runs as the first instruction after reset: quantity 0 is answered as V-RD-15, with the pin. -/
theorem test_withFetchWord : (after (State.reset.withFetchWord 8 0x03)).out =
    .de false :: .de true :: sent [0x11, 0x83, 0x03, 0x00, 0xF4] := by decide +kernel

/-! ### One step for each event -/

/-- V-TIM-1, V-TIM-5, V-TIM-6, V-TIM-9. -/
theorem test_timing : timeoutIC parS0 1200 = 13750 ∧ timeoutIF parS0 1200 = 32084 ∧ timeoutIC parS0 19200 = 860 ∧
    timeoutIF parS0 19200 = 2006 ∧ timeoutIC parS0 19201 = 750 ∧ timeoutIF parS0 19201 = 1750 ∧
    timeoutIC parS0 1 = 16500000 ∧ timeoutIF parS0 1 = 38500000 := by decide +kernel
/-- V-FP-3: a gap of `T_IC` is accepted, one of `T_IC + 1` breaks the frame. -/
theorem test_rx_gap :
    (after (given (received parS0 cfgCA [0x11]) [.rx 0x03 18719])).buf = [0x11, 0x03] ∧
    (after (given (received parS0 cfgCA [0x11]) [.rx 0x03 18720])).bus = .idleResync := by decide +kernel
/-- V-FP-6: a byte at the deadline of a broadcast starts the next frame. -/
theorem test_rx_completes_then_starts :
    after (given (received parS0 cfgCA [0x00, 0x06, 0x00, 0x00, 0x00, 0x07, 0xC9, 0xD9]) [.rx 0x11 21011]) =
    { ready parS0 cfgCA with
      hr := memWrite storeS0.hr 0 [7], bus := .receiving, buf := [0x11], tLast := 21011, tNow := 21011
      reply := some .done } := by decide +kernel
/-- V-FP-2: the resynchronization wait ends at `T_IF` and not before. -/
theorem test_tick_resync : (after (given State.reset [.tick 4010])).bus = .idleResync ∧
    (after (given State.reset [.tick 4011])).bus = .idleReady := by decide +kernel
/-- V-FP-13, with a byte at the deadline: the frame is dropped and the byte starts the next. -/
theorem test_rx_drops_then_starts :
    (after (given (received parS0 cfgCA [0x11, 0x03, 0x00, 0x00, 0x00, 0x01, 0x87, 0x9A]) [.rx 0x11 21011])).buf =
      [0x11] := by decide +kernel
/-- V-FP-4: one microsecond before the deadline nothing happens. -/
theorem test_tick_early : (after (given (received parS0 cfgCA [0x11]) [.tick 21010])).bus = .receiving := by
  decide +kernel
/-- V-DE-1: the release, at the guard time and not before. -/
theorem test_guard_release : (after (given guarding [.tick 30499])).bus = .guardWait ∧
    (after (given guarding [.tick 30500])).out = [.de false] := by decide +kernel
/-- P4 steps 7 and 9: `RECONFIG` in the guard wait, refused and accepted. -/
theorem test_reconfig_guard :
    (after (given guarding [.reconfig Config.resetCfg 30200])).reply = some .refused ∧
    (after (given guarding [.reconfig { Config.resetCfg with deInverted := true } 30600])).out =
      [.de false, .de true] := by decide +kernel
/-- V-CFG-5: refused whole, the completion of the frame included. -/
theorem test_reconfig_refused_whole :
    after (given (received parS0 cfgCA [0x11, 0x03, 0x00, 0x00, 0x00, 0x01, 0x86, 0x9A]) [.reconfig cfgCA 21011]) =
    { received parS0 cfgCA [0x11, 0x03, 0x00, 0x00, 0x00, 0x01, 0x86, 0x9A] with
      inbox := [], reply := some .refused } := by decide +kernel
/-- V-RST-1, V-RST-2: the invalid fields. -/
theorem test_reset_invalid :
    (after (given guarding [.reset { cfgCA with station := 248 } 0])).bus = .configFault ∧
    (after (given guarding [.reset { cfgCA with baud := 0 } 5])).bus = .configFault ∧
    (after (given guarding [.reset { Config.resetCfg with peerPresent := false } 0])).out = [] := by decide +kernel
/-- V-HOST-1, V-HOST-3. -/
theorem test_host : (after (given (ready parS0 cfgCA) [.hostRead .hr 9])).reply = some (.value 0xFEDC) ∧
    (after (given (ready parS0 cfgCA) [.hostWrite .co 0 2])).reply = some .refused := by decide +kernel

/-! ### States and operands that meet the statements' hypotheses -/

/-- The frame of V-FP-4. -/
def readFrame : List Byte := [0x11, 0x03, 0x00, 0x00, 0x00, 0x01, 0x86, 0x9A]

/-- The frame of V-FP-6, a broadcast. -/
def broadcastFrame : List Byte := [0x00, 0x06, 0x00, 0x00, 0x00, 0x07, 0xC9, 0xD9]

theorem witness_OneChangedByteFailsCrc : 2 ≤ readFrame.length ∧ crcOk readFrame = true ∧
    (0 < readFrame.length ∧ readFrame.getD 0 0#8 ≠ 0x12#8) ∧ (7 < readFrame.length ∧ readFrame.getD 7 0#8 ≠ 0x9B#8) := by
  decide +kernel

theorem witness_CrcOverValidFrameIsZero : 2 ≤ [0xFF#8, 0xFF#8].length ∧ crcOk [0xFF#8, 0xFF#8] = true ∧
    2 ≤ readFrame.length ∧ crcOk readFrame = true := by decide +kernel

theorem witness_DecodeOfEncodeIsTheRequest : WellFormed (.rdco 0xFF 0xFFFF 0xFFFF) ∧
    WellFormed (.wmco 0 0 0 []) ∧ WellFormed (.wmhr 0x11 0 123 (List.replicate 255 0xFF)) ∧
    WellFormed (.illegal 0x11 0xFF []) := by decide +kernel

theorem witness_EncodeOfDecodeIsTheFrame : decode readFrame = .ok (.rdhr 0x11 0 1) := by decide +kernel

theorem witness_BitReadsAnswerPackedElements :
    (0x11#8 = (ready parS1 cfgCA).cfg.station ∧ 0x11#8 ≠ 0#8 ∧ 1 ≤ (2000#16).toNat ∧ (2000#16).toNat ≤ 2000 ∧
      (100#16).toNat + (2000#16).toNat ≤ (ready parS1 cfgCA).par.nCO) ∧
    (1 ≤ (1#16).toNat ∧ (1#16).toNat ≤ 2000 ∧
      (2099#16).toNat + (1#16).toNat ≤ (ready parS1 cfgCA).par.nDI) := by decide +kernel

theorem witness_RegisterReadsAnswerBigEndian :
    (0x11#8 = (ready parS1 cfgCA).cfg.station ∧ 0x11#8 ≠ 0#8 ∧ 1 ≤ (125#16).toNat ∧ (125#16).toNat ≤ 125 ∧
      (75#16).toNat + (125#16).toNat ≤ (ready parS1 cfgCA).par.nHR) ∧
    (1 ≤ (1#16).toNat ∧ (1#16).toNat ≤ 125 ∧
      (199#16).toNat + (1#16).toNat ≤ (ready parS1 cfgCA).par.nIR) := by decide +kernel

theorem witness_SingleWritesWriteAndEcho : Memory.wf (ready parS0 cfgCA) = true ∧
    0x11#8 = (ready parS0 cfgCA).cfg.station ∧ 0x11#8 ≠ 0#8 ∧ (19#16).toNat < (ready parS0 cfgCA).par.nCO ∧
    (0xFF00#16 = 0xFF00#16 ∨ 0xFF00#16 = 0x0000#16) ∧ (9#16).toNat < (ready parS0 cfgCA).par.nHR := by decide +kernel

theorem witness_MultipleCoilsWritten : Memory.wf (ready parS1 cfgCA) = true ∧
    0x11#8 = (ready parS1 cfgCA).cfg.station ∧ 0x11#8 ≠ 0#8 ∧
    (132#16).toNat + (1968#16).toNat ≤ (ready parS1 cfgCA).par.nCO ∧ 1 ≤ (1968#16).toNat ∧ (1968#16).toNat ≤ 1968 ∧
    (List.replicate 246 0xFF#8).length = ((1968#16).toNat + 7) / 8 := by decide +kernel

theorem witness_MultipleRegistersWritten : Memory.wf (ready parS1 cfgCA) = true ∧
    0x11#8 = (ready parS1 cfgCA).cfg.station ∧ 0x11#8 ≠ 0#8 ∧
    (77#16).toNat + (123#16).toNat ≤ (ready parS1 cfgCA).par.nHR ∧ 1 ≤ (123#16).toNat ∧ (123#16).toNat ≤ 123 ∧
    (List.replicate 246 0x12#8).length = 2 * (123#16).toNat := by decide +kernel

theorem witness_UnsupportedCodeAnswersIllegalFunction :
    (0x11#8 = (ready parS0 cfgCA).cfg.station ∧ 0x11#8 ≠ 0#8) ∧
    (4 ≤ [0x11#8, 0x07#8, 0x4C#8, 0x22#8].length ∧ crcOk [0x11#8, 0x07#8, 0x4C#8, 0x22#8] = true ∧
      0x11#8 = (ready parS0 cfgCA).cfg.station ∧ (ready parS0 cfgCA).cfg.station ≠ 0#8 ∧
      0x07#8 ∉ [0x01#8, 0x02#8, 0x03#8, 0x04#8, 0x05#8, 0x06#8, 0x0F#8, 0x10#8]) := by decide +kernel

theorem witness_FirstFailingCheckDecides :
    (Instr.rdhr 0x11 0 126).target = (ready parS0 cfgCA).cfg.station ∧ (Instr.rdhr 0x11 0 126).target ≠ 0#8 ∧
    errorCode (ready parS0 cfgCA) (.rdhr 0x11 0 126) = some 0x02#8 ∧
    errorCode (ready parS1 cfgCA) (.rdhr 0x11 0 126) = some 0x03#8 ∧
    errorCode (ready parS0 cfgCA) (.illegal 0x11 0 []) = some 0x01#8 ∧
    errorCode (ready parS0 cfgCA) (.rdhr 0x11 0 10) = none := by decide +kernel

theorem witness_BroadcastActsInSilence : (ready parS0 cfgCA).cfg.station ≠ 0#8 ∧
    (∃ t, exec (retarget 0#8 (.wrhr 0x11 10 7)) (ready parS0 cfgCA) = .next t) ∧
    (∃ u, exec (retarget 0x11#8 (.wrhr 0x11 10 7)) (ready parS0 cfgCA) = .next u) ∧
    errorCode (ready parS0 cfgCA) (.wrhr 0x11 10 7) ≠ none ∧ errorCode (ready parS0 cfgCA) (.wrhr 0x11 9 7) = none :=
  ⟨by decide +kernel, exec_next _ _, exec_next _ _, by decide +kernel, by decide +kernel⟩

theorem witness_ForeignAddressChangesNothing :
    ((Instr.rdhr 0xF8 0 1).target ≠ (ready parS0 cfgCA).cfg.station ∧ (Instr.rdhr 0xF8 0 1).target ≠ 0#8) ∧
    (received parS0 cfgCA [0x12]).buf.getD 0 0#8 ≠ (received parS0 cfgCA [0x12]).cfg.station ∧
    (received parS0 cfgCA [0x12]).buf.getD 0 0#8 ≠ 0#8 := by decide +kernel

theorem witness_EveryResponseIsAStationFrame : ∃ t, exec (.rdhr 0x11 0 1) (ready parS0 cfgCA) = .next t :=
  exec_next _ _

theorem witness_WrittenRegistersReadBack : Memory.wf (ready parS0 cfgCA) = true ∧
    0x11#8 = (ready parS0 cfgCA).cfg.station ∧ 0x11#8 ≠ 0#8 ∧
    (8#16).toNat + (2#16).toNat ≤ (ready parS0 cfgCA).par.nHR ∧ 1 ≤ (2#16).toNat ∧ (2#16).toNat ≤ 123 ∧
    [0x00#8, 0x0A#8, 0x01#8, 0x02#8].length = 2 * (2#16).toNat ∧
    ∃ t, exec (.wmhr 0x11 8 2 [0x00, 0x0A, 0x01, 0x02]) (ready parS0 cfgCA) = .next t ∧
      ∃ u : State, u.hr = t.hr ∧ u.par = (ready parS0 cfgCA).par ∧ u.cfg = (ready parS0 cfgCA).cfg := by
  refine ⟨by decide +kernel, by decide, by decide, by decide, by decide, by decide, by decide, ?_⟩
  obtain ⟨t, ht⟩ := exec_next (.wmhr 0x11 8 2 [0x00, 0x0A, 0x01, 0x02]) (ready parS0 cfgCA)
  exact ⟨t, ht, { ready parS0 cfgCA with hr := t.hr }, rfl, rfl, rfl⟩

theorem witness_WrittenCoilsReadBack : Memory.wf (ready parS0 cfgCA) = true ∧
    0x11#8 = (ready parS0 cfgCA).cfg.station ∧ 0x11#8 ≠ 0#8 ∧
    (12#16).toNat + (8#16).toNat ≤ (ready parS0 cfgCA).par.nCO ∧ 1 ≤ (8#16).toNat ∧ (8#16).toNat ≤ 1968 ∧
    [0xCD#8].length = ((8#16).toNat + 7) / 8 ∧
    (∀ k, (8#16).toNat ≤ k → ([0xCD#8].getD (k / 8) 0#8).getLsbD (k % 8) = false) ∧
    ∃ t, exec (.wmco 0x11 12 8 [0xCD]) (ready parS0 cfgCA) = .next t ∧
      ∃ u : State, u.co = t.co ∧ u.par = (ready parS0 cfgCA).par ∧ u.cfg = (ready parS0 cfgCA).cfg := by
  refine ⟨by decide +kernel, by decide, by decide, by decide, by decide, by decide, by decide, fun k hk => ?_, ?_⟩
  · have h8 : 8 ≤ k := hk
    obtain ⟨m, hm⟩ : ∃ m, k / 8 = m + 1 := ⟨k / 8 - 1, by omega⟩
    simp [hm]
  · obtain ⟨t, ht⟩ := exec_next (.wmco 0x11 12 8 [0xCD]) (ready parS0 cfgCA)
    exact ⟨t, ht, { ready parS0 cfgCA with co := t.co }, rfl, rfl, rfl⟩

theorem witness_WriteIsIdempotent : cellsWf 0 10 storeS0.hr = true := by decide +kernel

theorem witness_TablesWithEqualElementsAreEqual : cellsWf 0 10 storeS0.hr = true ∧
    cellsWf 0 10 (memWrite storeS0.hr 9 [0xFEDC]) = true ∧
    ∀ a, cellRead storeS0.hr a = cellRead (memWrite storeS0.hr 9 [0xFEDC]) a := by
  have h : memWrite storeS0.hr 9 [0xFEDC] = storeS0.hr := by decide +kernel
  exact ⟨by decide +kernel, by decide +kernel, fun a => by rw [h]⟩

theorem witness_StepRunsDecodedRequest : (received parS0 cfgCA broadcastFrame).bus = .receiving ∧
    (received parS0 cfgCA broadcastFrame).tNow ≤ 21011 ∧
    (received parS0 cfgCA broadcastFrame).tIF ≤ 21011 - (received parS0 cfgCA broadcastFrame).tLast ∧
    decode (received parS0 cfgCA broadcastFrame).buf = .ok (.wrhr 0 0 7) ∧
    (received parS0 cfgCA broadcastFrame).inbox = [.tick 21011] ∧
    (given (received parS0 cfgCA broadcastFrame) [.rx 0x11 21011]).inbox = [.rx 0x11 21011] ∧
    (given (received parS0 cfgCA broadcastFrame) [.reconfig cfgCA 21011]).inbox = [.reconfig cfgCA 21011] ∧
    validCfg cfgCA = true ∧
    ∃ u, exec (.wrhr 0 0 7) (completing 21011 [] (received parS0 cfgCA broadcastFrame)) = .next u := by
  refine ⟨rfl, ?_, ?_, ?_, rfl, rfl, rfl, ?_, exec_next _ _⟩
  · decide +kernel
  · decide +kernel
  · decide +kernel
  · decide +kernel

theorem witness_RejectedFrameIsDroppedInSilence : (received parS0 cfgCA [0x11, 0x03, 0x00]).bus = .receiving ∧
    (received parS0 cfgCA [0x11, 0x03, 0x00]).tNow ≤ 21011 ∧
    (received parS0 cfgCA [0x11, 0x03, 0x00]).tIF ≤ 21011 - (received parS0 cfgCA [0x11, 0x03, 0x00]).tLast ∧
    decode [0x11, 0x03, 0x00] = .error .tooShort ∧
    decode [0x11, 0x03, 0x00, 0x00, 0x00, 0x01, 0x87, 0x9A] = .error .badCrc ∧
    decode [0x11, 0x03, 0x4D, 0xE1] = .error .malformedLength ∧
    (received parS0 cfgCA [0x11, 0x03, 0x00]).inbox = [.tick 21011] ∧
    (given (received parS0 cfgCA [0x11, 0x03, 0x00]) [.rx 0x11 21011]).inbox = [.rx 0x11 21011] ∧
    (given (received parS0 cfgCA [0x11, 0x03, 0x00]) [.reconfig cfgCA 21011]).inbox = [.reconfig cfgCA 21011] ∧
    validCfg cfgCA = true := by decide +kernel

theorem witness_EarlyTickChangesOnlyTime :
    (inService (received parS0 cfgCA readFrame) = true ∧ (received parS0 cfgCA readFrame).tNow ≤ 21010 ∧
      21010 - (received parS0 cfgCA readFrame).tLast < (received parS0 cfgCA readFrame).tIF) ∧
    (inService guarding = true ∧ guarding.tNow ≤ 30499 ∧ 30499 - guarding.tFlush < guarding.par.tGuard) ∧
    (given guarding [.tick 30499]).inbox = [.tick 30499] := by decide +kernel

theorem witness_TickAfterSilenceEndsResync : State.reset.bus = .idleResync ∧ State.reset.tNow ≤ 4011 ∧
    State.reset.tIF ≤ 4011 - State.reset.tLast ∧ (given State.reset [.tick 4011]).inbox = [.tick 4011] := by
  decide +kernel

theorem witness_ByteJoinsOverflowsOrBreaksFrame : (received parS0 cfgCA readFrame).bus = .receiving ∧
    (received parS0 cfgCA readFrame).tNow ≤ 18719 ∧
    18720 - (received parS0 cfgCA readFrame).tLast < (received parS0 cfgCA readFrame).tIF ∧
    (received parS0 cfgCA readFrame).tIC < 18720 - (received parS0 cfgCA readFrame).tLast ∧
    18719 - (received parS0 cfgCA readFrame).tLast ≤ (received parS0 cfgCA readFrame).tIC ∧
    (received parS0 cfgCA readFrame).buf.length ≠ (received parS0 cfgCA readFrame).par.maxAdu ∧
    (received { parS0 with maxAdu := 8 } cfgCA readFrame).buf.length = 8 ∧
    (given (received parS0 cfgCA readFrame) [.rx 0 18719]).inbox = [.rx 0 18719] := by decide +kernel

theorem witness_IdleByteStartsFrameOrRestartsWait :
    ((ready parS0 cfgCA).tNow ≤ 5000 ∧ (given (ready parS0 cfgCA) [.rx 0x11 5000]).inbox = [.rx 0x11 5000] ∧
      (ready parS0 cfgCA).bus = .idleReady) ∧
    (State.reset.bus = .idleResync ∧ State.reset.tNow ≤ 4010 ∧ State.reset.tIF ≤ 4011 - State.reset.tLast ∧
      4010 - State.reset.tLast < State.reset.tIF) := by decide +kernel

theorem witness_TransmitWindowDiscardsBytes : guarding.tNow ≤ 30499 ∧
    (given guarding [.rx 0x11 30499]).inbox = [.rx 0x11 30499] ∧ guarding.bus = .guardWait ∧
    30499 - guarding.tFlush < guarding.par.tGuard := by decide +kernel

theorem witness_FrameSentInTimeIsReceivedWhole : (ready parS0 cfgCA).bus = .idleReady ∧
    (ready parS0 cfgCA).tNow ≤ 10000 ∧
    inTime (ready parS0 cfgCA).tIC (ready parS0 cfgCA).tIF 10000 [(0x03#8, 11719), (0x00#8, 11719)] ∧
    [(0x03#8, 11719), (0x00#8, 11719)].length + 1 ≤ (ready parS0 cfgCA).par.maxAdu ∧
    (given (ready parS0 cfgCA) [.rx 0x11 10000, .rx 0x03 11719, .rx 0x00 11719]).inbox =
      .rx 0x11 10000 :: ([(0x03#8, 11719), (0x00#8, 11719)].map fun x => Event.rx x.1 x.2) ++ [] :=
  ⟨rfl, by decide, by simp [inTime, ready, State.reset], by decide, rfl⟩

theorem witness_BusFollowsTransitionTable : (received parS0 cfgCA readFrame).inbox = .tick 21011 :: [] ∧
    ∃ t, step (received parS0 cfgCA readFrame) = .next t :=
  ⟨rfl, next_of_completes (by decide +kernel)⟩

theorem witness_ByteAndTickAtOneTimeCommute : 0 < (received parS0 cfgCA readFrame).tIF ∧
    (received parS0 cfgCA readFrame).tNow ≤ 21011 ∧ inService (received parS0 cfgCA readFrame) = true := by
  decide +kernel

/-- A response being sent, with or without a pin. -/
def sending (c : Cfg) : State := { guarding with cfg := c, bus := .transmitting, tFlush := 0, tNow := 21011 }

theorem witness_TxdoneEndsTransmission : (sending cfgCA).bus = .transmitting ∧ (sending cfgCA).tNow ≤ 21011 ∧
    (given (sending cfgCA) [.txdone 21011]).inbox = [.txdone 21011] ∧ (sending cfgCA).cfg.dePresent = false ∧
    (sending Config.resetCfg).cfg.dePresent = true ∧ 0 < (sending Config.resetCfg).par.tGuard ∧
    ({ sending Config.resetCfg with par := { parS0 with tGuard := 0 } } : State).par.tGuard = 0 := by decide +kernel

theorem witness_GuardEndReleasesPin : guarding.bus = .guardWait ∧ guarding.tNow ≤ 30500 ∧
    guarding.par.tGuard ≤ 30500 - guarding.tFlush ∧ (given guarding [.tick 30500]).inbox = [.tick 30500] ∧
    (given guarding [.rx 0x11 30500]).inbox = [.rx 0x11 30500] := by decide +kernel

theorem witness_NoEventAbortsTransmission :
    ((sending cfgCA).bus = .transmitting ∧ isReset (.rx 0x11 21500) = false ∧
      ∃ t, step (given (sending cfgCA) [.rx 0x11 21500]) = .next t) ∧
    (guarding.bus = .guardWait ∧ isReset (.tick 30499) = false ∧ eventTime (.tick 30499) = some 30499 ∧
      30499 - guarding.tFlush < guarding.par.tGuard ∧ ∃ t, step (given guarding [.tick 30499]) = .next t) ∧
    (isReset (.tick 30500) = false ∧ (after (given guarding [.tick 30500])).bus ≠ .guardWait ∧
      ∃ t, step (given guarding [.tick 30500]) = .next t) := by
  refine ⟨⟨rfl, rfl, next_of_completes (by decide +kernel)⟩,
    ⟨rfl, rfl, rfl, by decide, next_of_completes (by decide +kernel)⟩,
    ⟨rfl, by decide +kernel, next_of_completes (by decide +kernel)⟩⟩

theorem witness_TraceGrowsByWholeResponses : (received parS0 cfgCA readFrame).inbox = [.tick 21011] ∧
    isReset (.tick 21011) = false ∧ ∃ t, step (received parS0 cfgCA readFrame) = .next t :=
  ⟨rfl, rfl, next_of_completes (by decide +kernel)⟩

theorem witness_OutOfServiceOnlyResetIsAccepted :
    ({ State.reset with bus := .unconfigured } : State).bus = .unconfigured ∧
    ({ State.reset with bus := .configFault } : State).bus = .configFault ∧
    (given { State.reset with bus := .configFault } [.hostRead .hr 0]).inbox = [.hostRead .hr 0] ∧
    isReset (.hostRead .hr 0) = false := by decide +kernel

theorem witness_UntimelyEventIsRefused :
    ((given (ready parS0 cfgCA) [.tick 4999]).inbox = [.tick 4999] ∧ eventTime (.tick 4999) = some 4999 ∧
      4999 < (ready parS0 cfgCA).tNow) ∧
    ((given (ready parS0 cfgCA) [.txdone 6000]).inbox = [.txdone 6000] ∧ (ready parS0 cfgCA).bus ≠ .transmitting) := by
  decide +kernel

theorem witness_HostReadReturnsElement : inService (ready parS0 cfgCA) = true ∧
    9 < extent (ready parS0 cfgCA).par .hr ∧
    (given (ready parS0 cfgCA) [.hostRead .hr 9]).inbox = [.hostRead .hr 9] := by decide +kernel

theorem witness_HostWriteWritesOneElement : Memory.wf guarding = true ∧ inService guarding = true ∧
    9 < extent guarding.par .ir ∧ fitsWidth .ir 0xFFFF = true ∧
    (given guarding [.hostWrite .ir 9 0xFFFF]).inbox = [.hostWrite .ir 9 0xFFFF] := by decide +kernel

theorem witness_HostAccessOutOfRangeIsRefused : extent (ready parS0 cfgCA).par .hr ≤ 10 ∧
    fitsWidth .co 2 = false ∧ (given (ready parS0 cfgCA) [.hostRead .hr 10]).inbox = [.hostRead .hr 10] ∧
    (given (ready parS0 cfgCA) [.hostWrite .co 0 2]).inbox = [.hostWrite .co 0 2] := by decide +kernel

theorem witness_ReconfigRestartsListening : (ready parS0 cfgCA).tNow ≤ 6000 ∧ validCfg cfgCA = true ∧
    (given (ready parS0 cfgCA) [.reconfig cfgCA 6000]).inbox = [.reconfig cfgCA 6000] ∧
    (ready parS0 cfgCA).bus = .idleReady ∧ State.reset.bus = .idleResync ∧
    (received parS0 cfgCA readFrame).bus = .receiving ∧
    21010 - (received parS0 cfgCA readFrame).tLast < (received parS0 cfgCA readFrame).tIF := by decide +kernel

theorem witness_ReconfigAfterGuardReleasesFirst : guarding.tNow ≤ 30500 ∧ validCfg cfgCA = true ∧
    (given guarding [.reconfig cfgCA 30500]).inbox = [.reconfig cfgCA 30500] ∧ guarding.bus = .guardWait ∧
    guarding.par.tGuard ≤ 30500 - guarding.tFlush := by decide +kernel

theorem witness_ReconfigRefusedWhole :
    (given (ready parS0 cfgCA) [.reconfig { cfgCA with station := 0 } 6000]).inbox =
      [.reconfig { cfgCA with station := 0 } 6000] ∧
    validCfg { cfgCA with station := 0 } = false ∧ (sending cfgCA).bus = .transmitting ∧ guarding.bus = .guardWait ∧
    30200 - guarding.tFlush < guarding.par.tGuard ∧ (received parS0 cfgCA readFrame).bus = .receiving ∧
    (received parS0 cfgCA readFrame).tIF ≤ 21011 - (received parS0 cfgCA readFrame).tLast ∧
    decode (received parS0 cfgCA readFrame).buf = .ok (.rdhr 0x11 0 1) ∧
    (Instr.rdhr 0x11 0 1).target = (received parS0 cfgCA readFrame).cfg.station ∧
    (Instr.rdhr 0x11 0 1).target ≠ 0#8 := by decide +kernel

theorem witness_ValidResetLeavesResetValues : validCfg { cfgCA with station := 247, baud := 1 } = true ∧
    (given guarding [.reset cfgCA 100]).inbox = [.reset cfgCA 100] ∧ validCfg cfgCA = true := by decide +kernel

theorem witness_InvalidResetEntersConfigFault : validCfg { cfgCA with station := 248 } = false ∧
    (given guarding [.reset { cfgCA with station := 248 } 0]).inbox = [.reset { cfgCA with station := 248 } 0] := by
  decide +kernel

theorem witness_ResetStateIsAnAcceptedReset :
    (given { State.reset with bus := .unconfigured } [.reset Config.resetCfg 0]).par = Config.resetParams ∧
    (given { State.reset with bus := .unconfigured } [.reset Config.resetCfg 0]).inbox =
      [.reset Config.resetCfg 0] := by decide +kernel

theorem witness_EveryStepAnswersNext : State.reset.inbox = [] := rfl

theorem witness_BusNeverWritesInputTables : (received parS0 cfgCA broadcastFrame).inbox = [.tick 21011] ∧
    isReset (.tick 21011) = false ∧ isHostWrite (.tick 21011) = false ∧
    ∃ t, step (received parS0 cfgCA broadcastFrame) = .next t :=
  ⟨rfl, rfl, rfl, next_of_completes (by decide +kernel)⟩

theorem witness_OnlyHostReconfigures : (received parS0 cfgCA readFrame).inbox = [.tick 21011] ∧
    isReset (.tick 21011) = false ∧ (∀ c t', Event.tick 21011 ≠ .reconfig c t') ∧
    ∃ t, step (received parS0 cfgCA readFrame) = .next t :=
  ⟨rfl, rfl, fun _ _ h => Event.noConfusion h, next_of_completes (by decide +kernel)⟩

theorem witness_TimingIsOrderedAtEveryBaud :
    parS0.tICOverride = none ∧ parS0.tIFOverride = none ∧ 1 ≤ 1 ∧ 1 ≤ 19200 ∧ 1 ≤ 19201 := by decide +kernel

/-- A frame in progress in an instance that overrides both timeouts with their values at 9600 baud. -/
def overridden : State :=
  received { parS0 with tICOverride := some 1719, tIFOverride := some 4011 } cfgCA readFrame

theorem witness_EveryStepKeepsInvariant : Invariant overridden ∧ ∃ t, step overridden = .next t := by
  refine ⟨⟨⟨by decide +kernel, by decide +kernel, fun _ _ => ⟨(by decide : 1 ≤ 1719), (by decide : 1719 < 4011)⟩,
    by decide +kernel, by decide +kernel, by decide +kernel, by decide +kernel⟩, by decide +kernel, ⟨fun _ => by decide +kernel,
    fun h => absurd rfl h⟩, fun _ => by decide +kernel, ⟨fun _ => by decide +kernel, fun h => Bus.noConfusion h⟩,
    fun _ => by decide +kernel⟩, next_of_completes (by decide +kernel)⟩

theorem witness_EveryStepKeepsPinOnLine :
    PinFollowsLine { guarding with out := [.de false, .de true, .tx 0x11] } ∧
    ∃ t, step (given { guarding with out := [.de false, .de true, .tx 0x11] } [.tick 30500]) = .next t :=
  ⟨fun _ _ => by decide +kernel, next_of_completes (by decide +kernel)⟩

end Sys2Proof.Tests
end

section
/-! The CRC-16 validator and generator (40_crc16.md): what the validator reads of a frame, and that the generator
satisfies it. -/

namespace Sys2Proof.Machine

/-- The validator compares the last two bytes, low byte first, with the CRC of the bytes before them (rule R102). -/
theorem crcOk_append_pair (s : List Byte) (l h : Byte) :
    crcOk (s ++ [l, h]) = true ↔ l = lo8 (crc16 s) ∧ h = hi8 (crc16 s) := by
  have low : (s ++ [l, h]).getD s.length 0#8 = l := by simp
  have high : (s ++ [l, h]).getD (s.length + 1) 0#8 = h := by simp
  have body : (s ++ [l, h]).take s.length = s := List.take_left
  have len : (s ++ [l, h]).length = s.length + 2 := List.length_append
  rw [crcOk, len, Nat.add_sub_cancel, Nat.add_sub_assoc (by decide : 1 ≤ 2), body, low, high]
  simp only [Bool.and_eq_true, beq_iff_eq]

/-- What the generator appends satisfies the validator (rule R104). -/
@[simp] theorem crcOk_appendCrc (s : List Byte) : crcOk (appendCrc s) = true :=
  (crcOk_append_pair s _ _).2 ⟨rfl, rfl⟩

/-- The encoder sends nothing without a CRC (rule R230). -/
theorem encodeResponse_eq_appendCrc (st : Byte) (r : Response) : ∃ s, encodeResponse st r = appendCrc s := by
  cases r with
  | normal fc d => exact ⟨st :: fc :: d, rfl⟩
  | exc fc c => exact ⟨[st, fc ||| 0x80#8, excByte c], rfl⟩

/-- Every encoded response passes the validator (rule R104). -/
@[simp] theorem crcOk_encodeResponse (st : Byte) (r : Response) : crcOk (encodeResponse st r) = true := by
  obtain ⟨s, hs⟩ := encodeResponse_eq_appendCrc st r
  rw [hs, crcOk_appendCrc]

/-- Settles O1, by running rule R100 on the nine bytes. -/
theorem crcCheckValueIs4B37 : Obligations.CrcCheckValueIs4B37 := by
  unfold Obligations.CrcCheckValueIs4B37
  decide +kernel

/-- Settles O2, by the validator's equation on a frame that ends in two bytes. -/
theorem appendedCrcValidates : Obligations.AppendedCrcValidates :=
  ⟨crcOk_appendCrc, crcOk_encodeResponse⟩

end Sys2Proof.Machine
end

section
/-! The RTU frame parser (41_frame_parser.md): whose request a frame carries, and what the address filter of rule R141
does with a request for another station. -/

namespace Sys2Proof.Machine

/-! ### The decoder keeps the address byte -/

/-- Two-field formats carry exactly their constructor (rules R77, R78). -/
theorem decodePair_ok {mk : Word → Word → Instr} {p : List Byte} {i : Instr} (h : decodePair mk p = .ok i) :
    ∃ x y, i = mk x y := by
  unfold decodePair at h
  split at h
  · exact ⟨_, _, (Except.ok.inj h).symm⟩
  · cases h

/-- The multiple-write format carries exactly its constructor (rule R79). -/
theorem decodeMulti_ok {mk : Word → Word → List Byte → Instr} {p : List Byte} {i : Instr}
    (h : decodeMulti mk p = .ok i) : ∃ x y data, i = mk x y data := by
  unfold decodeMulti at h
  split at h
  · split at h
    · exact ⟨_, _, _, (Except.ok.inj h).symm⟩
    · cases h
  · cases h

/-- Every row of the opcode map (rule R85), the default among them, passes `ADDR` on. -/
theorem decodePdu_target {addr fc : Byte} {p : List Byte} {i : Instr} (h : decodePdu addr fc p = .ok i) :
    i.target = addr := by
  have pair {mk : Word → Word → Instr} (hmk : ∀ x y, (mk x y).target = addr) (hp : decodePair mk p = .ok i) :
      i.target = addr := by
    obtain ⟨x, y, rfl⟩ := decodePair_ok hp
    exact hmk x y
  have multi {mk : Word → Word → List Byte → Instr} (hmk : ∀ x y data, (mk x y data).target = addr)
      (hp : decodeMulti mk p = .ok i) : i.target = addr := by
    obtain ⟨x, y, data, rfl⟩ := decodeMulti_ok hp
    exact hmk x y data
  unfold decodePdu at h
  split_ifs at h
  case pos | pos | pos | pos | pos | pos => exact pair (fun _ _ => rfl) h
  case pos | pos => exact multi (fun _ _ _ => rfl) h
  case neg => exact Except.ok.inj h ▸ rfl

/-- An accepted frame is long enough, has a good CRC, and carries what its PDU says (rules R140, R142, R143). -/
theorem decode_ok_iff (f : List Byte) (i : Instr) : decode f = .ok i ↔
    4 ≤ f.length ∧ crcOk f = true ∧
      decodePdu (f.getD 0 0#8) (f.getD 1 0#8) ((f.drop 2).take (f.length - 4)) = .ok i := by
  by_cases hlen : f.length < 4
  · simp [decode, hlen]
  · cases hcrc : crcOk f <;> simp [decode, hlen, hcrc, Nat.le_of_not_lt hlen]

/-- The request a frame carries is for the station its first byte names (rules R70, R140). -/
theorem target_of_decode_ok {f : List Byte} {i : Instr} (h : decode f = .ok i) : i.target = f.getD 0 0#8 := by
  obtain ⟨-, -, hpdu⟩ := (decode_ok_iff f i).1 h
  exact decodePdu_target hpdu

/-! ### The address filter -/

/-- The filter passes this station's requests and broadcasts, and no others (rule R141). -/
theorem addressed_eq_false_iff (s : State) (addr : Byte) :
    addressed s addr = false ↔ addr ≠ s.cfg.station ∧ addr ≠ 0#8 := by
  simp [addressed]

/-- A function leaves a request for another station alone (rule R141). -/
theorem runFunction_foreign {addr : Byte} {s : State} (h : addressed s addr = false) (fc : Byte)
    (failure : Option ExcCode) (effect : State → State) (data : List Byte) :
    runFunction addr fc failure effect data s = .next s := by
  simp [runFunction, h]

/-- Every request runs one function of the opcode map, behind the filter on its own address byte (rules R85, R160). -/
theorem exec_eq_runFunction (i : Instr) (s : State) : ∃ failure effect data,
    exec i s = runFunction i.target (opcode i) failure effect data s := by
  cases i <;>
    simp only [exec, execRdco, execRddi, execRdhr, execRdir, execWrco, execWrhr, execWmco, execWmhr, execIllegal] <;>
    exact ⟨_, _, _, rfl⟩

/-- A request for another station changes nothing (rule R141). -/
theorem exec_foreign {i : Instr} {s : State} (h : addressed s i.target = false) : exec i s = .next s := by
  obtain ⟨failure, effect, data, hexec⟩ := exec_eq_runFunction i s
  rw [hexec, runFunction_foreign h]

/-- A frame for another station only leaves the buffer, whether or not the decoder accepts it (rules R140, R141). -/
theorem complete_foreign {s : State} (h : addressed s (s.buf.getD 0 0#8) = false) :
    complete s = .next (takeFrame s) := by
  rcases complete_cases s with ⟨r, -, hdrop⟩ | ⟨i, hdec, hrun⟩
  · exact hdrop
  · have hfilter : addressed (takeFrame s) i.target = false := (target_of_decode_ok hdec).symm ▸ h
    rw [hrun, exec_foreign hfilter]

/-- Settles O17, by the address filter on the request and on the first byte of the frame. -/
theorem foreignAddressChangesNothing : Obligations.ForeignAddressChangesNothing :=
  ⟨fun s _ hstation hzero => exec_foreign ((addressed_eq_false_iff s _).2 ⟨hstation, hzero⟩),
    fun s hstation hzero => complete_foreign ((addressed_eq_false_iff s _).2 ⟨hstation, hzero⟩)⟩

end Sys2Proof.Machine
end

section
/-! The write functions (44_write_functions.md): every request runs one function whose checks and effect do not depend
on the address byte, so a broadcast does to the store what the addressed form does (rule R205). -/

namespace Sys2Proof.Machine

/-! ### The checks earn the error code (rules R163 to R165, R304) -/

/-- The quantity check refuses exactly the quantities outside its limits (rule R164). -/
theorem checkQty_code (q lo hi : Nat) :
    (checkQty q lo hi).map excByte = if lo ≤ q ∧ q ≤ hi then none else some 0x03#8 := by
  by_cases h : lo ≤ q ∧ q ≤ hi
  · simp [checkQty, h, Nat.not_lt.2 h.1, Nat.not_lt.2 h.2]
  · have hout : q < lo ∨ q > hi := by omega
    simp [checkQty, h, hout, excByte]

/-- The coil value check refuses exactly the values other than on and off (rule R164). -/
theorem checkCoilValue_code (v : Word) :
    (checkCoilValue v).map excByte = if v = 0xFF00#16 ∨ v = 0x0000#16 then none else some 0x03#8 := by
  by_cases h : v = 0xFF00#16 ∨ v = 0x0000#16
  · rcases h with rfl | rfl <;> rfl
  · have hboth : v ≠ 0xFF00#16 ∧ v ≠ 0x0000#16 := not_or.1 h
    simp [checkCoilValue, hboth, excByte]

/-- The value checks of a multiple write: the quantity, then the byte count it requires (rule R164). -/
theorem checkQty_or_checkBc_code (q lo hi bc expected : Nat) :
    ((checkQty q lo hi).or (checkBc bc expected)).map excByte =
      if lo ≤ q ∧ q ≤ hi ∧ bc = expected then none else some 0x03#8 := by
  by_cases hq : lo ≤ q ∧ q ≤ hi
  · by_cases hbc : bc = expected
    · simp [checkQty, checkBc, hq, hbc, Nat.not_lt.2 hq.1, Nat.not_lt.2 hq.2]
    · simp [checkQty, checkBc, hbc, Nat.not_lt.2 hq.1, Nat.not_lt.2 hq.2, excByte]
  · have hout : q < lo ∨ q > hi := by omega
    have hnot : ¬(lo ≤ q ∧ q ≤ hi ∧ bc = expected) := fun ⟨hlo, hhi, _⟩ => hq ⟨hlo, hhi⟩
    simp [checkQty, hout, hnot, excByte]

/-- Range before values (rules R165, R308): a range check followed by checks that refuse exactly the illegal values
earns the error code of the request. -/
theorem checkRange_or_code {s : State} {i : Instr} {table : Table} {a q : Nat} {values : Option ExcCode}
    (hrange : requestRange i = some (table, a, q))
    (hvalues : values.map excByte = if valuesLegal i then none else some 0x03#8) :
    ((checkRange (extent s.par table) a q).or values).map excByte = errorCode s i := by
  by_cases h : a + q > extent s.par table
  · simp [checkRange, errorCode, hrange, h, excByte]
  · simp [checkRange, errorCode, hrange, h, hvalues]

/-! ### One function for every address byte -/

/-- A request is itself under its own address byte. -/
@[simp] theorem retarget_target (i : Instr) : retarget i.target i = i := by
  cases i <;> rfl

/-- Under every address byte a request runs one and the same function: its checks earn its error code, and its effect
writes at most the coils and the holding registers (rules R160, R165, R167, R186, R206). -/
theorem exec_retarget (i : Instr) (s : State) : ∃ failure effect data,
    (∀ a, exec (retarget a i) s = runFunction a (opcode i) failure effect data s) ∧
    failure.map excByte = errorCode s i ∧
    ∀ u : State, ∃ co hr, effect u = { u with co := co, hr := hr } := by
  cases i with
  | rdco _ start qty =>
    refine ⟨_, _, _, fun _ => rfl, ?_, fun u => ⟨u.co, u.hr, rfl⟩⟩
    rw [firstFailure_pair]
    exact checkRange_or_code (table := .co) rfl (by simp [checkQty_code, valuesLegal, maxReadBits])
  | rddi _ start qty =>
    refine ⟨_, _, _, fun _ => rfl, ?_, fun u => ⟨u.co, u.hr, rfl⟩⟩
    rw [firstFailure_pair]
    exact checkRange_or_code (table := .di) rfl (by simp [checkQty_code, valuesLegal, maxReadBits])
  | rdhr _ start qty =>
    refine ⟨_, _, _, fun _ => rfl, ?_, fun u => ⟨u.co, u.hr, rfl⟩⟩
    rw [firstFailure_pair]
    exact checkRange_or_code (table := .hr) rfl (by simp [checkQty_code, valuesLegal, maxReadRegs])
  | rdir _ start qty =>
    refine ⟨_, _, _, fun _ => rfl, ?_, fun u => ⟨u.co, u.hr, rfl⟩⟩
    rw [firstFailure_pair]
    exact checkRange_or_code (table := .ir) rfl (by simp [checkQty_code, valuesLegal, maxReadRegs])
  | wrco _ address value =>
    refine ⟨_, _, _, fun _ => rfl, ?_, fun u => ⟨_, u.hr, rfl⟩⟩
    rw [firstFailure_pair]
    exact checkRange_or_code (table := .co) rfl (by simp [checkCoilValue_code, valuesLegal])
  | wrhr _ address value =>
    refine ⟨_, _, _, fun _ => rfl, ?_, fun u => ⟨u.co, _, rfl⟩⟩
    rw [firstFailure_single, ← Option.or_none (o := checkRange _ _ _)]
    exact checkRange_or_code (table := .hr) rfl rfl
  | wmco _ start qty data =>
    refine ⟨_, _, _, fun _ => rfl, ?_, fun u => ⟨_, u.hr, rfl⟩⟩
    rw [firstFailure_triple, Option.or_assoc]
    exact checkRange_or_code (table := .co) rfl
      (by simp [checkQty_or_checkBc_code, valuesLegal, maxWriteBits, ceilDiv])
  | wmhr _ start qty data =>
    refine ⟨_, _, _, fun _ => rfl, ?_, fun u => ⟨u.co, _, rfl⟩⟩
    rw [firstFailure_triple, Option.or_assoc]
    exact checkRange_or_code (table := .hr) rfl (by simp [checkQty_or_checkBc_code, valuesLegal, maxWriteRegs])
  | illegal _ fc payload =>
    exact ⟨some .illegalFunction, id, [], fun _ => rfl, rfl, fun u => ⟨u.co, u.hr, rfl⟩⟩

/-! ### A broadcast beside the addressed form -/

/-- A broadcast passes the filter and sends nothing: it leaves the effect of its function, or nothing when a check
fails (rules R144, R205, R307). -/
theorem runFunction_broadcast (fc : Byte) (failure : Option ExcCode) (effect : State → State) (data : List Byte)
    (s : State) :
    runFunction 0#8 fc failure effect data s = .next (if failure.isSome then s else effect s) := by
  cases failure <;> simp [runFunction, addressed, raiseException, deliver_broadcast]

/-- A request for this station hands over one response: to the start state when a check fails, else to the effect of
its function (rules R166, R167, R231). -/
theorem runFunction_station {addr : Byte} {s : State} (hstation : addr = s.cfg.station) (hzero : addr ≠ 0#8) (fc : Byte)
    (failure : Option ExcCode) (effect : State → State) (data : List Byte) :
    ∃ f, runFunction addr fc failure effect data s = .next (answered f (if failure.isSome then s else effect s)) := by
  have hpass : addressed s addr = true := by simp [addressed, hstation]
  cases failure with
  | some c => exact ⟨_, by simp only [runFunction, hpass, raiseException, deliver_addressed hzero]; rfl⟩
  | none => exact ⟨_, by simp only [runFunction, hpass, deliver_addressed hzero]; rfl⟩

/-- Settles O16, by the one function both forms run: `t` is what its effect leaves and `u` is `t` answered. -/
theorem broadcastActsInSilence : Obligations.BroadcastActsInSilence := by
  intro s t u i hzero ht hu
  obtain ⟨failure, effect, data, hexec, hcode, heffect⟩ := exec_retarget i s
  obtain ⟨f, hstation⟩ := runFunction_station rfl hzero (opcode i) failure effect data
  rw [hexec, runFunction_broadcast] at ht
  rw [hexec, hstation] at hu
  obtain rfl := Host.Outcome.next.inj ht
  obtain rfl := Host.Outcome.next.inj hu
  cases failure with
  | some c => exact ⟨rfl, fun _ => rfl⟩
  | none =>
    obtain ⟨co, hr, hwrite⟩ := heffect s
    have herror : errorCode s i = none := hcode.symm
    exact ⟨by simp [hwrite], fun hne => absurd herror hne⟩

end Sys2Proof.Machine
end

section
/-! The input tables (rules R62, R206): which operations leave `DI` and `IR` alone, up to the step. -/

namespace Sys2Proof.Machine

/-- The two tables the bus may only read: `DI` and `IR`. -/
def inputTables (s : State) : Cells 1 × Cells 16 := (s.di, s.ir)

/-- Equal input tables are equal discrete inputs and equal input registers. -/
theorem inputTables_eq_iff {s t : State} : inputTables t = inputTables s ↔ t.di = s.di ∧ t.ir = s.ir :=
  Prod.mk_inj

/-- A response changes the line, the trace and the bus state only (rules R231, R247). -/
theorem inputTables_deliver (addr : Byte) (r : Response) (s : State) :
    inputTables (deliver addr r s) = inputTables s := by
  by_cases h : addr = 0#8
  · rw [h, deliver_broadcast]
  · rw [deliver_addressed h]
    rfl

/-- No request writes an input table (rule R206). -/
theorem inputTables_exec {i : Instr} {s t : State} (h : exec i s = .next t) : inputTables t = inputTables s := by
  obtain ⟨failure, effect, data, hexec, -, heffect⟩ := exec_retarget i s
  have hrun := hexec i.target
  rw [retarget_target, h] at hrun
  rcases runFunction_cases hrun.symm with ⟨-, hforeign⟩ | ⟨-, c, -, hexc⟩ | ⟨-, -, hnormal⟩
  · rw [Host.Outcome.next.inj hforeign]
  · rw [Host.Outcome.next.inj hexc, raiseException, inputTables_deliver]
  · obtain ⟨co, hr, hwrite⟩ := heffect s
    rw [Host.Outcome.next.inj hnormal, inputTables_deliver, hwrite]
    rfl

/-- Frame completion writes no input table (rules R140, R206). -/
theorem inputTables_complete {s t : State} (h : complete s = .next t) : inputTables t = inputTables s := by
  rcases complete_cases s with ⟨r, -, hdrop⟩ | ⟨i, -, hrun⟩
  · obtain rfl := Host.Outcome.next.inj (hdrop.symm.trans h)
    rfl
  · exact inputTables_exec (s := takeFrame s) (hrun.symm.trans h)

/-- The deadlines write no input table (rules R120, R122, R123, R253). -/
theorem inputTables_advance {time : Nat} {s t : State} (h : advance time s = .next t) :
    inputTables t = inputTables s := by
  rcases advance_cases time s with ⟨-, -, hready⟩ | ⟨-, -, hcomplete⟩ | ⟨-, -, hrelease⟩ | ⟨hsame, -⟩
  · obtain rfl := Host.Outcome.next.inj (hready.symm.trans h)
    rfl
  · exact inputTables_complete (hcomplete.symm.trans h)
  · obtain rfl := Host.Outcome.next.inj (hrelease.symm.trans h)
    rfl
  · obtain rfl := Host.Outcome.next.inj (hsame.symm.trans h)
    rfl

/-- A byte that joins, overflows or breaks a frame goes to no table (rules R124, R125, R126). -/
theorem inputTables_accumulate (b : Byte) (t : Nat) (s : State) :
    inputTables (accumulate b t s) = inputTables s := by
  rcases accumulate_cases b t s with ⟨-, h⟩ | ⟨-, -, h⟩ | ⟨-, -, h⟩
  all_goals rw [h]; rfl

/-- A received byte goes to no table (rules R121, R127, R129). -/
theorem inputTables_receiveByte (b : Byte) (t : Nat) (s : State) :
    inputTables (receiveByte b t s) = inputTables s := by
  unfold receiveByte
  cases s.bus with
  | receiving => exact inputTables_accumulate b t s
  | unconfigured | configFault | idleResync | idleReady | transmitting | guardWait => rfl

/-- The end of a transmission writes no table (rules R251, R252). -/
theorem inputTables_endTransmission (t : Nat) (s : State) : inputTables (endTransmission t s) = inputTables s := by
  rcases endTransmission_cases t s with ⟨-, h⟩ | ⟨-, -, h⟩ | ⟨-, -, h⟩
  all_goals rw [h]; rfl

/-- `RECONFIG` leaves the store (rule R275). -/
theorem inputTables_reconfigure (c : Cfg) (t : Nat) (s : State) : inputTables (reconfigure c t s) = inputTables s := by
  have hretime : inputTables (retime c s) = inputTables s := by
    unfold retime
    split <;> rfl
  unfold reconfigure
  split <;> exact hretime

/-- Every accepted event but `RESET` and `HOST_WRITE` leaves the input tables (rules R62, R206). -/
theorem inputTables_handle {e : Event} {s t : State} (h : handle e s = .next (some t)) (hreset : isReset e = false)
    (hwrite : isHostWrite e = false) : inputTables t = inputTables s := by
  have hcases := handle_cases h
  cases e with
  | reset c t0 => cases hreset
  | rx b time =>
    obtain ⟨-, -, v, hadvance, rfl⟩ := hcases
    exact (inputTables_receiveByte b time v).trans (inputTables_advance (s := setTime time s) hadvance)
  | tick time =>
    obtain ⟨-, -, hadvance⟩ := hcases
    exact inputTables_advance (s := setTime time s) hadvance
  | txdone time =>
    obtain ⟨-, -, rfl⟩ := hcases
    exact inputTables_endTransmission time _
  | reconfig c time =>
    obtain ⟨-, -, -, v, hadvance, -, rfl⟩ := hcases
    exact (inputTables_reconfigure c time v).trans (inputTables_advance (s := setTime time s) hadvance)
  | hostRead table a =>
    obtain ⟨-, -, rfl⟩ := hcases
    rfl
  | hostWrite table a v => cases hwrite

/-- Settles O49: a refused event leaves the store, and an accepted one the input tables. -/
theorem busNeverWritesInputTables : Obligations.BusNeverWritesInputTables := by
  intro s t e rest hinbox hstep hreset hwrite
  have htake : takeEvent e rest s = .next t := by simpa [step, runInbox, hinbox] using hstep
  rcases takeEvent_cases htake with haccept | ⟨-, rfl⟩
  · exact inputTables_eq_iff.1 (inputTables_handle (s := popEvent rest s) haccept hreset hwrite)
  · exact ⟨rfl, rfl⟩

end Sys2Proof.Machine
end

section
/-! The transmit-enable controller (46_tx_enable.md): what an event can do to the driver from the first byte of a
response to the release of the pin. -/

namespace Sys2Proof.Machine

/-! ### The driver's part of the state -/

/-- What rule R254 protects: the bus state, the logical state of the line, and the output trace. -/
def driverView (s : State) : Bus × Line × List OutEvent := (s.bus, s.de, s.out)

/-- Equal driver views are equal bus states, line states and traces. -/
theorem driverView_eq_iff {s t : State} :
    driverView t = driverView s ↔ t.bus = s.bus ∧ t.de = s.de ∧ t.out = s.out := by
  simp [driverView]

/-- `RELEASE` came first on the way from `s` to `t`: the line is back at receive, and its level is the first thing added
to the trace (rule R253). -/
def ReleasedFirst (s t : State) : Prop :=
  t.de = .receive ∧ ∃ more, t.out = s.out ++ .de (level s.cfg .receive) :: more

/-- The transmit window is the transmission and the guard wait after it (rules R249, R255). -/
theorem inWindow_eq_true_iff (s : State) : inWindow s = true ↔ s.bus = .transmitting ∨ s.bus = .guardWait := by
  simp [inWindow]

/-! ### The operations in the window -/

/-- In the window `ADVANCE` does nothing before the end of the guard time, and then only releases (rules R120, R253). -/
theorem advance_inWindow_cases {s : State} (hwindow : inWindow s = true) (t : Nat) :
    advance t s = .next s ∨
    (s.bus = .guardWait ∧ s.par.tGuard ≤ t - s.tFlush ∧ advance t s = .next (release s)) := by
  rw [inWindow_eq_true_iff] at hwindow
  rcases advance_cases t s with ⟨hbus, -⟩ | ⟨hbus, -⟩ | hrelease | ⟨hsame, -⟩
  · simp [hbus] at hwindow
  · simp [hbus] at hwindow
  · exact .inr hrelease
  · exact .inl hsame

/-- A byte received in the window is discarded (rules R129, R255). -/
theorem receiveByte_inWindow {s : State} (hwindow : inWindow s = true) (b : Byte) (t : Nat) :
    receiveByte b t s = s := by
  rcases (inWindow_eq_true_iff s).1 hwindow with hbus | hbus
  · simp [receiveByte, hbus]
  · simp [receiveByte, hbus]

/-- A byte that finds the guard time over starts a frame (rules R124, R253). -/
theorem receiveByte_release (b : Byte) (t : Nat) (s : State) :
    receiveByte b t (release s) = startFrame b t (release s) := rfl

/-- `RECONFIG` takes the line to receive (rule R275). -/
@[simp] theorem reconfigure_de (c : Cfg) (t : Nat) (s : State) : (reconfigure c t s).de = .receive := by
  cases hpin : c.dePresent <;> simp [reconfigure, hpin]

/-- `RECONFIG` adds the receive level of its own record, where that has a pin (rule R275). -/
theorem reconfigure_out (c : Cfg) (t : Nat) (s : State) :
    (reconfigure c t s).out = s.out ++ if c.dePresent then [.de (level c .receive)] else [] := by
  have hretime : (retime c s).out = s.out := by
    unfold retime
    split <;> rfl
  cases hpin : c.dePresent <;> simp [reconfigure, hpin, hretime]

/-- A host write leaves the driver alone (rule R273). -/
@[simp] theorem driverView_tableWrite (s : State) (table : Table) (a v : Nat) :
    driverView (tableWrite s table a v) = driverView s := by
  cases table <;> rfl

/-! ### An event in the window -/

/-- What the event `e` may have done to the driver between `s`, in the window, and `u`: nothing; the end of the
transmission, by a `TXDONE`; or the release, by a timestamp at or after the end of the guard time (rules R250, R253). -/
def DriverAfter (e : Event) (s u : State) : Prop :=
  driverView u = driverView s ∨
  (s.bus = .transmitting ∧ ∃ t, e = .txdone t) ∨
  (s.bus = .guardWait ∧ (∃ t, eventTime e = some t ∧ s.par.tGuard ≤ t - s.tFlush) ∧ ReleasedFirst s u)

/-- In the window an accepted event but `RESET` leaves the driver, ends the transmission or releases (rule R254). -/
theorem handle_driverAfter {e : Event} {s u : State} (hwindow : inWindow s = true) (hreset : isReset e = false)
    (h : handle e s = .next (some u)) : DriverAfter e s u := by
  have hcases := handle_cases h
  cases e with
  | reset c t0 => cases hreset
  | rx b t =>
    obtain ⟨-, -, v, hv, rfl⟩ := hcases
    rcases advance_inWindow_cases (s := setTime t s) hwindow t with hsame | ⟨hbus, hguard, hrelease⟩
    · obtain rfl := Host.Outcome.next.inj (hsame.symm.trans hv)
      rw [receiveByte_inWindow (s := setTime t s) hwindow]
      exact .inl rfl
    · obtain rfl := Host.Outcome.next.inj (hrelease.symm.trans hv)
      rw [receiveByte_release]
      exact .inr (.inr ⟨hbus, ⟨t, rfl, hguard⟩, rfl, [], rfl⟩)
  | tick t =>
    obtain ⟨-, -, hu⟩ := hcases
    rcases advance_inWindow_cases (s := setTime t s) hwindow t with hsame | ⟨hbus, hguard, hrelease⟩
    · obtain rfl := Host.Outcome.next.inj (hsame.symm.trans hu)
      exact .inl rfl
    · obtain rfl := Host.Outcome.next.inj (hrelease.symm.trans hu)
      exact .inr (.inr ⟨hbus, ⟨t, rfl, hguard⟩, rfl, [], rfl⟩)
  | txdone t =>
    obtain ⟨hbus, -, -⟩ := hcases
    exact .inr (.inl ⟨hbus, t, rfl⟩)
  | reconfig c t =>
    obtain ⟨-, -, -, v, hv, hleft, rfl⟩ := hcases
    rcases advance_inWindow_cases (s := setTime t s) hwindow t with hsame | ⟨hbus, hguard, hrelease⟩
    · obtain rfl := Host.Outcome.next.inj (hsame.symm.trans hv)
      exact absurd (hwindow.symm.trans hleft) (by decide)
    · obtain rfl := Host.Outcome.next.inj (hrelease.symm.trans hv)
      have hout := (reconfigure_out c t (release (setTime t s))).trans (List.append_assoc ..)
      exact .inr (.inr ⟨hbus, ⟨t, rfl, hguard⟩, reconfigure_de .., _, hout⟩)
  | hostRead table a =>
    obtain ⟨-, -, rfl⟩ := hcases
    exact .inl rfl
  | hostWrite table a v =>
    obtain ⟨-, -, -, rfl⟩ := hcases
    exact .inl (driverView_tableWrite s table a v)

/-- So does every step, since a refused event leaves the driver too (rules R254, R270). -/
theorem step_driverAfter {s t : State} {e : Event} {rest : List Event} (hwindow : inWindow s = true)
    (hinbox : s.inbox = e :: rest) (hstep : step s = .next t) (hreset : isReset e = false) :
    DriverAfter e s t := by
  have htake : takeEvent e rest s = .next t := by simpa [step, runInbox, hinbox] using hstep
  rcases takeEvent_cases htake with haccept | ⟨-, rfl⟩
  · exact handle_driverAfter (s := popEvent rest s) hwindow hreset haccept
  · exact .inl rfl

/-- Settles O35, by the three things an event can do in the window. -/
theorem noEventAbortsTransmission : Obligations.NoEventAbortsTransmission := by
  intro s t e rest hinbox hstep hreset
  refine ⟨fun hbus htxdone => ?_, fun hbus hearly => ?_, fun hbus hleft => ?_⟩
  · have hwindow : inWindow s = true := (inWindow_eq_true_iff s).2 (.inl hbus)
    rcases step_driverAfter hwindow hinbox hstep hreset with hsame | ⟨-, t', he⟩ | ⟨hguard, -⟩
    · exact hbus ▸ driverView_eq_iff.1 hsame
    · exact absurd he (htxdone t')
    · simp [hbus] at hguard
  · have hwindow : inWindow s = true := (inWindow_eq_true_iff s).2 (.inr hbus)
    rcases step_driverAfter hwindow hinbox hstep hreset with hsame | ⟨hsending, -⟩ | ⟨-, ⟨t', ht', hover⟩, -⟩
    · exact hbus ▸ driverView_eq_iff.1 hsame
    · simp [hbus] at hsending
    · exact absurd (hearly t' ht') (Nat.not_lt.2 hover)
  · have hwindow : inWindow s = true := (inWindow_eq_true_iff s).2 (.inr hbus)
    rcases step_driverAfter hwindow hinbox hstep hreset with hsame | ⟨hsending, -⟩ | ⟨-, -, hreleased⟩
    · exact absurd ((driverView_eq_iff.1 hsame).1.trans hbus) hleft
    · simp [hbus] at hsending
    · exact hreleased

end Sys2Proof.Machine
end

section
/-! Exceptions (60_exceptions.md): an addressed request whose checks fail is answered with the exception it earned, and
every other with a normal response. -/

namespace Sys2Proof.Machine

/-! ### The two answers of one function -/

/-- The first failing check of an addressed request is its answer, and the store stays (rules R166, R231, R303). -/
theorem runFunction_exception {addr : Byte} {s : State} (hstation : addr = s.cfg.station) (hzero : addr ≠ 0#8)
    (fc : Byte) (c : ExcCode) (effect : State → State) (data : List Byte) :
    runFunction addr fc (some c) effect data s = .next (answered (exceptionFrame s fc (excByte c)) s) := by
  have hpass : addressed s addr = true := by simp [addressed, hstation]
  rcases raiseException_cases addr fc c s with ⟨hbroadcast, -⟩ | ⟨-, hraise⟩
  · exact absurd hbroadcast hzero
  · simp [runFunction, hpass, hraise]

/-- An addressed request that fails no check is answered under its own function code, after its effect (rules R167,
R231). -/
theorem runFunction_normal {addr : Byte} {s : State} (hstation : addr = s.cfg.station) (hzero : addr ≠ 0#8)
    (fc : Byte) (effect : State → State) (data : List Byte) :
    runFunction addr fc none effect data s =
      .next (answered (appendCrc ((effect s).cfg.station :: fc :: data)) (effect s)) := by
  have hpass : addressed s addr = true := by simp [addressed, hstation]
  simp [runFunction, hpass, deliver_addressed hzero, encodeResponse]

/-! ### Unsupported function codes -/

/-- The default of the opcode map: an unsupported code, with the payload unread (rules R85, R170). -/
theorem decodePdu_unsupported {fc : Byte} (h : fc ∉ supportedCodes) (addr : Byte) (p : List Byte) :
    decodePdu addr fc p = .ok (.illegal addr fc p) := by
  simp only [supportedCodes, List.mem_cons, List.not_mem_nil, or_false, not_or] at h
  obtain ⟨h1, h2, h3, h4, h5, h6, h15, h16⟩ := h
  simp only [decodePdu, h1, h2, h3, h4, h5, h6, h15, h16, if_false]

/-- An addressed request with an unsupported code is answered with exception 0x01 (rules R170, R302). -/
theorem exec_illegal_addressed {addr : Byte} {s : State} (hstation : addr = s.cfg.station) (hzero : addr ≠ 0#8)
    (fc : Byte) (p : List Byte) :
    exec (.illegal addr fc p) s = .next (answered (appendCrc [addr, fc ||| 0x80#8, 0x01#8]) s) := by
  have hrun : exec (.illegal addr fc p) s = runFunction addr fc (some .illegalFunction) id [] s := rfl
  rw [hrun, runFunction_exception hstation hzero, hstation]
  rfl

/-- Settles O14, by the default of the opcode map and the exception it always raises. -/
theorem unsupportedCodeAnswersIllegalFunction : Obligations.UnsupportedCodeAnswersIllegalFunction := by
  refine ⟨fun s addr fc p hstation hzero => exec_illegal_addressed hstation hzero fc p, ?_⟩
  intro s f hlen hcrc hstation hzero hcode
  exact ⟨_, (decode_ok_iff f _).2 ⟨hlen, hcrc, decodePdu_unsupported hcode _ _⟩,
    exec_illegal_addressed hstation (hstation ▸ hzero) _ _⟩

/-! ### Range before values -/

/-- Settles O15, by the one function a request runs: its failing check is the error code, and without one its effect
writes at most the coils and the holding registers. -/
theorem firstFailingCheckDecides : Obligations.FirstFailingCheckDecides := by
  intro s i hstation hzero
  obtain ⟨failure, effect, data, hexec, hcode, heffect⟩ := exec_retarget i s
  have hrun := hexec i.target
  rw [retarget_target] at hrun
  rw [hrun, ← hcode]
  cases failure with
  | some c =>
    refine ⟨fun code hearned => ?_, nofun⟩
    obtain rfl : excByte c = code := Option.some.inj hearned
    exact runFunction_exception hstation hzero ..
  | none =>
    refine ⟨nofun, fun _ => ?_⟩
    obtain ⟨co, hr, hwrite⟩ := heffect s
    refine ⟨co, hr, data, ?_⟩
    rw [runFunction_normal hstation hzero, hwrite]

end Sys2Proof.Machine
end

section
/-! The encoding of requests (30_encoding.md, 42_dispatch.md section 2): a payload and the request read from it, a frame
and the request it carries, and the frames that carry none. -/

namespace Sys2Proof.Machine

/-! ### The payload formats -/

/-- The two-field formats accept exactly the two fields in wire order (rules R77, R78). -/
theorem decodePair_ok_iff {mk : Word → Word → Instr} {p : List Byte} {i : Instr} :
    decodePair mk p = .ok i ↔ ∃ x y, i = mk x y ∧ p = fieldBytes x ++ fieldBytes y := by
  constructor
  · intro h
    unfold decodePair at h
    split at h
    · next a b c d => exact ⟨be16 a b, be16 c d, (Except.ok.inj h).symm, by simp [fieldBytes]⟩
    · cases h
  · rintro ⟨x, y, rfl, rfl⟩
    simp [decodePair, fieldBytes]

/-- The multiple-write format accepts exactly two fields, the byte count, and that many data bytes (rules R79, R162). -/
theorem decodeMulti_ok_iff {mk : Word → Word → List Byte → Instr} {p : List Byte} {i : Instr} :
    decodeMulti mk p = .ok i ↔
      ∃ x y data, i = mk x y data ∧ data.length < 256 ∧ p = multiPayload x y data := by
  constructor
  · intro h
    unfold decodeMulti at h
    split at h
    · next a b c d bc data =>
      split at h
      · next hbc =>
        refine ⟨be16 a b, be16 c d, data, (Except.ok.inj h).symm, hbc ▸ bc.isLt, ?_⟩
        simp [multiPayload, fieldBytes, hbc]
      · cases h
    · cases h
  · rintro ⟨x, y, data, rfl, hlen, rfl⟩
    simp [decodeMulti, multiPayload, fieldBytes, Nat.mod_eq_of_lt hlen]

/-! ### The opcode map -/

/-- The opcode map accepts exactly the target, the function code and the payload of a well-formed request (rules R85,
R162, R170). -/
theorem decodePdu_ok_iff {addr fc : Byte} {p : List Byte} {i : Instr} : decodePdu addr fc p = .ok i ↔
    WellFormed i ∧ i.target = addr ∧ opcode i = fc ∧ payload i = p := by
  constructor
  · intro h
    have htarget := decodePdu_target h
    by_cases hfc : fc ∈ supportedCodes
    · simp only [supportedCodes, List.mem_cons, List.not_mem_nil, or_false] at hfc
      rcases hfc with rfl | rfl | rfl | rfl | rfl | rfl | rfl | rfl
      case inr.inr.inr.inr.inr.inr.inl | inr.inr.inr.inr.inr.inr.inr =>
        obtain ⟨x, y, data, rfl, hlen, rfl⟩ := decodeMulti_ok_iff.1 h
        exact ⟨by simp [WellFormed, illFormed, hlen], htarget, rfl, rfl⟩
      all_goals
        obtain ⟨x, y, rfl, rfl⟩ := decodePair_ok_iff.1 h
        exact ⟨rfl, htarget, rfl, rfl⟩
    · obtain rfl := Except.ok.inj ((decodePdu_unsupported hfc addr p).symm.trans h)
      exact ⟨by simp [WellFormed, illFormed, hfc], rfl, rfl, rfl⟩
  · rintro ⟨hwf, rfl, rfl, rfl⟩
    cases i with
    | rdco | rddi | rdhr | rdir | wrco | wrhr => exact decodePair_ok_iff.2 ⟨_, _, rfl, rfl⟩
    | wmco a s q data | wmhr a s q data =>
      have hlen : data.length < 256 := by simpa [WellFormed, illFormed] using hwf
      exact decodeMulti_ok_iff.2 ⟨s, q, data, rfl, hlen, rfl⟩
    | illegal a fc p =>
      have hfc : fc ∉ supportedCodes := by simpa [WellFormed, illFormed] using hwf
      exact decodePdu_unsupported hfc a p

/-! ### Whole frames -/

/-- A frame of at least 4 bytes is address, function code, payload and two bytes of CRC (rule R70). -/
theorem frame_eq_parts {f : List Byte} (hlen : 4 ≤ f.length) : ∃ addr fc p l h, f = addr :: fc :: p ++ [l, h] := by
  match f, hlen with
  | addr :: fc :: tail, hlen =>
    simp only [List.length_cons] at hlen
    have hsplit := List.take_append_drop (tail.length - 2) tail
    obtain ⟨l, h, hlast⟩ : ∃ l h, tail.drop (tail.length - 2) = [l, h] :=
      List.length_eq_two.1 (by rw [List.length_drop]; omega)
    exact ⟨addr, fc, tail.take (tail.length - 2), l, h, by
      rw [← hlast, List.cons_append, List.cons_append, hsplit]⟩

/-- The decoder on a frame given by its parts (rules R140, R143). -/
theorem decode_parts (addr fc : Byte) (p : List Byte) (l h : Byte) : decode (addr :: fc :: p ++ [l, h]) =
    if crcOk (addr :: fc :: p ++ [l, h]) = false then .error .badCrc else decodePdu addr fc p := by
  have hlong : ¬ (addr :: fc :: p ++ [l, h]).length < 4 := by simp
  have hbody : ((addr :: fc :: p ++ [l, h]).drop 2).take ((addr :: fc :: p ++ [l, h]).length - 4) = p := by simp
  rw [decode, if_neg hlong, hbody]
  rfl

/-- The decoder accepts exactly the encodings of well-formed requests, each as that request. -/
theorem decode_ok_iff_encode {f : List Byte} {i : Instr} : decode f = .ok i ↔ WellFormed i ∧ encode i = f := by
  constructor
  · intro hdec
    obtain ⟨hlen, hcrc, -⟩ := (decode_ok_iff f i).1 hdec
    obtain ⟨addr, fc, p, l, h, rfl⟩ := frame_eq_parts hlen
    rw [decode_parts, hcrc, if_neg (by decide)] at hdec
    obtain ⟨hwf, rfl, rfl, rfl⟩ := decodePdu_ok_iff.1 hdec
    obtain ⟨rfl, rfl⟩ := (crcOk_append_pair _ l h).1 hcrc
    exact ⟨hwf, rfl⟩
  · rintro ⟨hwf, rfl⟩
    have hcrc : crcOk (encode i) = true := crcOk_appendCrc _
    rw [encode, appendCrc] at hcrc ⊢
    rw [decode_parts, hcrc, if_neg (by decide)]
    exact decodePdu_ok_iff.2 ⟨hwf, rfl, rfl, rfl⟩

/-- Settles O5, by the decoder's inversion. -/
theorem decodeOfEncodeIsTheRequest : Obligations.DecodeOfEncodeIsTheRequest :=
  fun _ hwf => decode_ok_iff_encode.2 ⟨hwf, rfl⟩

/-- Settles O6, by the decoder's inversion. -/
theorem encodeOfDecodeIsTheFrame : Obligations.EncodeOfDecodeIsTheFrame :=
  fun _ _ hdec => decode_ok_iff_encode.1 hdec

/-- Settles O7, by running the decoder on the five frames. -/
theorem sampleFramesDecode : Obligations.SampleFramesDecode := by
  unfold Obligations.SampleFramesDecode
  decide +kernel

/-! ### Rejected frames -/

/-- The two-field formats reject exactly the payloads of another length than 4 (rule R162). -/
theorem decodePair_error_iff {mk : Word → Word → Instr} {p : List Byte} {r : Reject} :
    decodePair mk p = .error r ↔ r = .malformedLength ∧ p.length ≠ 4 := by
  unfold decodePair
  split
  · simp
  · next hshape =>
    have hlen : p.length ≠ 4 := by
      intro hlen
      match p, hlen with
      | [a, b, c, d], _ => exact hshape a b c d rfl
    simp [hlen, eq_comm]

/-- The multiple-write format rejects exactly the payloads without a byte count, or with another number of data bytes
than it says (rule R162). -/
theorem decodeMulti_error_iff {mk : Word → Word → List Byte → Instr} {p : List Byte} {r : Reject} :
    decodeMulti mk p = .error r ↔
      r = .malformedLength ∧ (p.length < 5 ∨ p.length ≠ 5 + (p.getD 4 0#8).toNat) := by
  unfold decodeMulti
  split
  · next a b c d bc data =>
    by_cases hbc : data.length = bc.toNat
    · have hlen : (a :: b :: c :: d :: bc :: data).length = 5 + bc.toNat := by
        simp only [List.length_cons]
        omega
      exact iff_of_false (by simp [hbc]) fun ⟨_, hbad⟩ => hbad.elim (by omega) fun hne => hne hlen
    · have hlen : data.length + 5 ≠ 5 + bc.toNat := by omega
      simp [hbc, hlen, eq_comm]
  · next hshape =>
    have hshort : p.length < 5 := by
      match p, hshape with
      | [], _ | [_], _ | [_, _], _ | [_, _, _], _ | [_, _, _, _], _ => simp
      | a :: b :: c :: d :: bc :: data, hshape => exact absurd rfl (hshape a b c d bc data)
    simp [hshort, eq_comm]

/-- The opcode map rejects exactly the supported codes with a payload of another length than their format's (rules
R85, R162). -/
theorem decodePdu_error_iff {addr fc : Byte} {p : List Byte} {r : Reject} : decodePdu addr fc p = .error r ↔
    r = .malformedLength ∧ ((fc ∈ [0x01#8, 0x02#8, 0x03#8, 0x04#8, 0x05#8, 0x06#8] ∧ p.length ≠ 4) ∨
      (fc ∈ [0x0F#8, 0x10#8] ∧ (p.length < 5 ∨ p.length ≠ 5 + (p.getD 4 0#8).toNat))) := by
  by_cases hfc : fc ∈ supportedCodes
  · simp only [supportedCodes, List.mem_cons, List.not_mem_nil, or_false] at hfc
    rcases hfc with rfl | rfl | rfl | rfl | rfl | rfl | rfl | rfl
    case inr.inr.inr.inr.inr.inr.inl | inr.inr.inr.inr.inr.inr.inr =>
      refine decodeMulti_error_iff.trans (and_congr_right fun _ => ?_)
      simp
    all_goals
      refine decodePair_error_iff.trans (and_congr_right fun _ => ?_)
      simp
  · simp only [decodePdu_unsupported hfc, reduceCtorEq, false_iff, not_and]
    simp only [supportedCodes, List.mem_cons, List.not_mem_nil, or_false] at hfc ⊢
    rintro - (⟨hpair, -⟩ | ⟨hmulti, -⟩) <;> exact hfc (by tauto)

/-- The opcode map rejects for a length only (rule R162). -/
theorem decodePdu_reject {addr fc : Byte} {p : List Byte} {r : Reject} (h : decodePdu addr fc p = .error r) :
    r = .malformedLength :=
  (decodePdu_error_iff.1 h).1

/-- Settles O8, by the decoder on a frame given by its parts. -/
theorem decoderRejectsExactlyMalformedFrames : Obligations.DecoderRejectsExactlyMalformedFrames := by
  intro f
  by_cases hshort : f.length < 4
  · have hdec : decode f = .error .tooShort := by rw [decode, if_pos hshort]
    simp [hdec, hshort]
  obtain ⟨addr, fc, p, l, h, rfl⟩ := frame_eq_parts (Nat.le_of_not_lt hshort)
  have hlong : 4 ≤ (addr :: fc :: p ++ [l, h]).length := Nat.le_of_not_lt hshort
  rw [decode_parts]
  cases hcrc : crcOk (addr :: fc :: p ++ [l, h]) with
  | false => simp
  | true =>
    rw [if_neg (by decide)]
    refine ⟨iff_of_false (fun hr => nomatch decodePdu_reject hr) hshort,
      iff_of_false (fun hr => nomatch decodePdu_reject hr) (by simp), ?_⟩
    have hlen : (addr :: fc :: p ++ [l, h]).length = p.length + 4 := by simp
    have hbc : 5 ≤ p.length → (addr :: fc :: p ++ [l, h]).getD 6 0#8 = p.getD 4 0#8 := fun hp =>
      List.getD_append p [l, h] 0#8 4 hp
    have hmulti : (p.length < 5 ∨ p.length ≠ 5 + (p.getD 4 0#8).toNat) ↔
        (p.length + 4 < 9 ∨ p.length + 4 ≠ 9 + ((addr :: fc :: p ++ [l, h]).getD 6 0#8).toNat) := by
      by_cases hp : p.length < 5
      · exact iff_of_true (.inl hp) (.inl (by omega))
      · rw [hbc (Nat.le_of_not_lt hp)]
        omega
    have hpair : p.length ≠ 4 ↔ p.length + 4 ≠ 8 := by omega
    rw [decodePdu_error_iff, hlen, hpair, hmulti]
    exact ⟨fun ⟨_, hwhy⟩ => ⟨Nat.le_add_left .., rfl, hwhy⟩, fun ⟨_, _, hwhy⟩ => ⟨rfl, hwhy⟩⟩

end Sys2Proof.Machine
end

section
/-! Error detection of the CRC-16 (40_crc16.md): the register over a valid frame ends at zero, and every byte leaves its
mark on the register. -/

namespace Sys2Proof.Machine

/-! ### The register over a valid frame -/

/-- While only zeros leave the register, the inner loop of rule R100 is a plain shift. -/
theorem crcShifts_of_low_zero : ∀ (n : Nat) (c : Word), (∀ k < n, c.getLsbD k = false) → crcShifts n c = c >>> n
  | 0, c, _ => by simp [crcShifts]
  | n + 1, c, h => by
    have hshift : crcShift c = c >>> 1 := by rw [crcShift, h 0 (Nat.succ_pos n), if_neg (by decide)]
    have hrest : ∀ k < n, (c >>> 1).getLsbD k = false := fun k hk => by
      rw [BitVec.getLsbD_ushiftRight]
      exact h (1 + k) (by omega)
    rw [crcShifts, hshift, crcShifts_of_low_zero n _ hrest, ← BitVec.shiftRight_add, Nat.add_comm]

/-- Taking in the low byte of the register moves its high byte down. -/
theorem crcByte_lo8 (c : Word) : crcByte c (lo8 c) = (hi8 c).setWidth 16 := by
  have hlow : ∀ k < 8, (c ^^^ (lo8 c).setWidth 16).getLsbD k = false := fun k hk => by
    have hk16 : k < 16 := by omega
    simp [lo8, hk, hk16]
  rw [crcByte, crcShifts_of_low_zero 8 _ hlow]
  apply BitVec.eq_of_getLsbD_eq
  intro k hk
  by_cases hk8 : k < 8
  · simp [lo8, hi8, hk8, hk]
  · have hbeyond : c.getLsbD (8 + k) = false := BitVec.getLsbD_of_ge c _ (by omega)
    simp [lo8, hi8, hk8, hbeyond]

/-- Taking in the byte that the register holds empties it. -/
theorem crcByte_setWidth_self (b : Byte) : crcByte (b.setWidth 16) b = 0#16 := by
  rw [crcByte, BitVec.xor_self]
  rfl

/-- A frame of at least two bytes is its body and two last bytes. -/
theorem eq_append_pair {f : List Byte} (hlen : 2 ≤ f.length) : ∃ s l h, f = s ++ [l, h] := by
  obtain ⟨l, h, hlast⟩ : ∃ l h, f.drop (f.length - 2) = [l, h] :=
    List.length_eq_two.1 (by rw [List.length_drop]; omega)
  exact ⟨f.take (f.length - 2), l, h, by rw [← hlast, List.take_append_drop]⟩

/-- The register over a valid frame, its CRC included, ends at zero. -/
theorem crc16_of_crcOk {f : List Byte} (hlen : 2 ≤ f.length) (h : crcOk f = true) : crc16 f = 0#16 := by
  obtain ⟨s, lo, hi, rfl⟩ := eq_append_pair hlen
  obtain ⟨rfl, rfl⟩ := (crcOk_append_pair s lo hi).1 h
  calc crc16 (s ++ [lo8 (crc16 s), hi8 (crc16 s)])
      = crcByte (crcByte (crc16 s) (lo8 (crc16 s))) (hi8 (crc16 s)) := by simp [crc16, List.foldl_append]
    _ = 0#16 := by rw [crcByte_lo8, crcByte_setWidth_self]

/-- Settles O4, by the register over the two last bytes. -/
theorem crcOverValidFrameIsZero : Obligations.CrcOverValidFrameIsZero :=
  fun _ hlen h => crc16_of_crcOk hlen h

/-! ### No byte is lost in the register -/

/-- The bit that leaves the register shows in bit 15 of the next one, since bit 15 of the polynomial is set. -/
theorem crcShift_getLsbD_15 (c : Word) : (crcShift c).getLsbD 15 = c.getLsbD 0 := by
  rw [crcShift]
  split
  · next h => simpa using h
  · next h => simpa using h

/-- One pass of the inner loop loses nothing. -/
theorem crcShift_injective : Function.Injective crcShift := by
  intro c d h
  have hlow : c.getLsbD 0 = d.getLsbD 0 := by rw [← crcShift_getLsbD_15 c, h, crcShift_getLsbD_15]
  have hhigh : c >>> 1 = d >>> 1 := by
    simp only [crcShift, hlow] at h
    split at h
    · exact (BitVec.xor_left_inj _).1 h
    · exact h
  apply BitVec.eq_of_getLsbD_eq
  intro k _
  cases k with
  | zero => exact hlow
  | succ k =>
    have hbit := congrArg (BitVec.getLsbD · k) hhigh
    simpa [Nat.add_comm] using hbit

/-- The inner loop of rule R100 loses nothing. -/
theorem crcShifts_injective : ∀ n, Function.Injective (crcShifts n)
  | 0 => fun _ _ h => h
  | n + 1 => fun _ _ h => crcShift_injective (crcShifts_injective n h)

/-- Two registers that take in the same byte stay apart. -/
theorem crcByte_left_injective (b : Byte) : Function.Injective (crcByte · b) :=
  fun _ _ h => (BitVec.xor_left_inj _).1 (crcShifts_injective 8 h)

/-- Two bytes leave a register in different states. -/
theorem crcByte_right_injective (c : Word) : Function.Injective (crcByte c) := by
  intro b b' h
  have hwide : b.setWidth 16 = b'.setWidth 16 := (BitVec.xor_right_inj _).1 (crcShifts_injective 8 h)
  have hnarrow := congrArg (BitVec.setWidth 8) hwide
  simpa using hnarrow

/-- Two registers stay apart over any bytes. -/
theorem foldl_crcByte_injective : ∀ q : List Byte, Function.Injective (q.foldl crcByte)
  | [] => fun _ _ h => h
  | b :: q => fun _ _ h => crcByte_left_injective b (foldl_crcByte_injective q h)

/-- Two lists that differ in one byte have different CRCs. -/
theorem crc16_append_cons_injective (p q : List Byte) :
    Function.Injective fun b => crc16 (p ++ b :: q) := by
  intro b b' h
  simp only [crc16, List.foldl_append, List.foldl_cons] at h
  exact crcByte_right_injective _ (foldl_crcByte_injective q h)

/-- Settles O3: two valid frames both leave the register at zero, so they cannot differ in one byte. -/
theorem oneChangedByteFailsCrc : Obligations.OneChangedByteFailsCrc := by
  intro f k b hlen hok hk hne
  rw [Bool.eq_false_iff]
  intro hok'
  have hzero := crc16_of_crcOk hlen hok
  have hzero' := crc16_of_crcOk (by rwa [List.length_set]) hok'
  have hsplit : f = f.take k ++ f[k] :: f.drop (k + 1) := by rw [List.getElem_cons_drop, List.take_append_drop]
  rw [List.set_eq_take_append_cons_drop, if_pos hk] at hzero'
  rw [hsplit] at hzero
  have hsame : f[k] = b := crc16_append_cons_injective _ _ (hzero.trans hzero'.symm)
  rw [List.getD_eq_getElem _ _ hk] at hne
  exact hne hsame

end Sys2Proof.Machine
end

section
/-! The data store (20_memory.md): multi-element reads and writes element by element, and the canonical form of the
tables (log entry 4), in which equal elements are equal data. -/

namespace Sys2Proof.Machine

/-! ### The canonical form -/

/-- The canonical form of a table with a first entry. -/
theorem cellsWf_cons {w lo hi k : Nat} {v : BitVec w} {rest : Cells w} :
    cellsWf lo hi ((k, v) :: rest) = true ↔ lo ≤ k ∧ k < hi ∧ v ≠ 0#w ∧ cellsWf (k + 1) hi rest = true := by
  simp only [cellsWf, Bool.and_eq_true, decide_eq_true_eq, and_assoc]

/-- The canonical form within a higher upper bound. -/
theorem cellsWf_mono_upper {w hi hi' : Nat} (hhi : hi ≤ hi') : ∀ {m : Cells w} {lo : Nat},
    cellsWf lo hi m = true → cellsWf lo hi' m = true
  | [], _, _ => rfl
  | (k, v) :: rest, lo, h => by
    obtain ⟨hlo, hk, hv, hrest⟩ := cellsWf_cons.1 h
    exact cellsWf_cons.2 ⟨hlo, Nat.lt_of_lt_of_le hk hhi, hv, cellsWf_mono_upper hhi hrest⟩

/-- The canonical form within wider bounds on both sides. -/
theorem cellsWf_widen {w lo hi hi' : Nat} {m : Cells w} (hhi : hi ≤ hi') (h : cellsWf lo hi m = true) :
    cellsWf 0 hi' m = true :=
  cellsWf_mono (Nat.zero_le lo) (cellsWf_mono_upper hhi h)

/-- The first entry of a canonical table is where its elements stop being zero. -/
theorem cellRead_before_head {w lo hi k a : Nat} {v : BitVec w} {rest : Cells w}
    (h : cellsWf lo hi ((k, v) :: rest) = true) (ha : a < k) : cellRead ((k, v) :: rest) a = 0#w := by
  obtain ⟨-, hk, hv, hrest⟩ := cellsWf_cons.1 h
  exact cellRead_of_lt (cellsWf_cons.2 ⟨Nat.le_refl k, hk, hv, hrest⟩) ha

/-- A table reads its first entry at that entry's address. -/
@[simp] theorem cellRead_head {w : Nat} (k : Nat) (v : BitVec w) (rest : Cells w) :
    cellRead ((k, v) :: rest) k = v := by
  simp [cellRead]

/-- The rest of a canonical table reads as the table beyond its first entry, and as zero at it. -/
theorem cellRead_tail {w hi k : Nat} {v : BitVec w} {rest : Cells w} (h : cellsWf (k + 1) hi rest = true) (a : Nat) :
    cellRead rest a = if a = k then 0#w else cellRead ((k, v) :: rest) a := by
  by_cases ha : a = k
  · rw [if_pos ha, cellRead_of_lt h (by omega)]
  · rw [if_neg ha, cellRead, if_neg (Ne.symm ha)]

/-- Canonical tables with the same elements are equal. -/
theorem eq_of_cellRead_eq {w hi : Nat} : ∀ {m n : Cells w} {lo : Nat}, cellsWf lo hi m = true →
    cellsWf lo hi n = true → (∀ a, cellRead m a = cellRead n a) → m = n
  | [], [], _, _, _, _ => rfl
  | [], (k, v) :: rest, _, _, hn, h => by
    obtain ⟨-, -, hv, -⟩ := cellsWf_cons.1 hn
    exact absurd ((cellRead_head k v rest).symm.trans (h k).symm) hv
  | (k, v) :: rest, [], _, hm, _, h => by
    obtain ⟨-, -, hv, -⟩ := cellsWf_cons.1 hm
    exact absurd ((cellRead_head k v rest).symm.trans (h k)) hv
  | (k, v) :: rest, (k', v') :: rest', _, hm, hn, h => by
    obtain ⟨-, -, hv, hrest⟩ := cellsWf_cons.1 hm
    obtain ⟨-, -, hv', hrest'⟩ := cellsWf_cons.1 hn
    have hkey : k = k' := by
      rcases Nat.lt_trichotomy k k' with hlt | heq | hgt
      · exact absurd ((cellRead_head k v rest).symm.trans ((h k).trans (cellRead_before_head hn hlt))) hv
      · exact heq
      · exact absurd ((cellRead_head k' v' rest').symm.trans ((h k').symm.trans (cellRead_before_head hm hgt))) hv'
    subst hkey
    have hval : v = v' := by simpa using h k
    subst hval
    have htail : rest = rest' := eq_of_cellRead_eq hrest hrest' fun a => by
      rw [cellRead_tail (v := v) hrest, cellRead_tail (v := v) hrest', h a]
    rw [htail]

/-- Settles O23, by induction on both tables. -/
theorem tablesWithEqualElementsAreEqual : Obligations.TablesWithEqualElementsAreEqual :=
  fun _ _ _ _ _ hm hn h => eq_of_cellRead_eq hm hn h

/-! ### Multi-element writes and reads -/

/-- What a multi-element write does to every read (rules R12, R60). -/
theorem cellRead_memWrite {w : Nat} (b : Nat) : ∀ (vs : List (BitVec w)) {m : Cells w} {lo hi : Nat} (a : Nat),
    cellsWf lo hi m = true →
    cellRead (memWrite m a vs) b = if a ≤ b ∧ b < a + vs.length then vs.getD (b - a) 0#w else cellRead m b
  | [], m, _, _, a, _ => by
    rw [memWrite, if_neg]
    simp only [List.length_nil]
    omega
  | v :: vs, m, lo, hi, a, hm => by
    have hwide : cellsWf 0 (max hi (a + 1)) m = true := cellsWf_widen (Nat.le_max_left ..) hm
    have hwrite := cellsWf_cellWrite v (Nat.lt_of_succ_le (Nat.le_max_right hi (a + 1))) (Nat.zero_le a) hwide
    rw [memWrite, cellRead_memWrite b vs (a + 1) hwrite, cellRead_cellWrite a v b hm]
    rcases Nat.lt_trichotomy b a with hlt | rfl | hgt
    · rw [if_neg (by omega), if_neg (by omega), if_neg (by omega)]
    · simp
    · have hindex : b - a = (b - (a + 1)) + 1 := by omega
      rw [if_neg (by omega : ¬ b = a), hindex, List.getD_cons_succ, List.length_cons]
      congr 1
      exact propext (by omega)

/-- A multi-element write keeps the canonical form, within bounds that hold the table and the range. -/
theorem cellsWf_memWrite_max {w lo hi a : Nat} {m : Cells w} {vs : List (BitVec w)} (h : cellsWf lo hi m = true) :
    cellsWf 0 (max hi (a + vs.length)) (memWrite m a vs) = true :=
  cellsWf_memWrite vs (Nat.le_max_right ..) (cellsWf_widen (Nat.le_max_left ..) h)

/-- Settles O22: both sides are canonical, and every element reads alike. -/
theorem writeIsIdempotent : Obligations.WriteIsIdempotent := by
  intro w lo hi a m vs hm
  have hone := cellsWf_memWrite_max (a := a) (vs := vs) hm
  have htwo := cellsWf_memWrite vs (Nat.le_max_right hi (a + vs.length)) hone
  refine eq_of_cellRead_eq htwo hone fun b => ?_
  rw [cellRead_memWrite b vs a hone, cellRead_memWrite b vs a hm]
  split <;> rfl

/-- `MemRead` as a list of the elements of its range (rule R12). -/
theorem memRead_eq_map {w : Nat} (m : Cells w) (a n : Nat) :
    memRead m a n = (List.range n).map fun k => cellRead m (a + k) := by
  apply List.ext_getElem?
  intro k
  rw [memRead_getElem?, List.getElem?_map]
  by_cases hk : k < n
  · rw [if_pos hk, List.getElem?_range hk, Option.map_some]
  · rw [if_neg hk, List.getElem?_eq_none (by simpa using hk), Option.map_none]

/-- A range just written reads back as what was written (rule R65). -/
theorem memRead_memWrite {w lo hi : Nat} {m : Cells w} (hm : cellsWf lo hi m = true) (a : Nat)
    (vs : List (BitVec w)) : memRead (memWrite m a vs) a vs.length = vs := by
  apply List.ext_getElem?
  intro k
  rw [memRead_getElem?, cellRead_memWrite _ vs a hm]
  by_cases hk : k < vs.length
  · simp [hk]
  · rw [if_neg hk, List.getElem?_eq_none (Nat.le_of_not_lt hk)]

end Sys2Proof.Machine
end

section
/-! The operand forms (43_read_functions.md section 1, 44_write_functions.md sections 1 and 2): packing and unpacking of
bits and of registers. -/

namespace Sys2Proof.Machine

/-! ### Registers -/

/-- The wire form of registers, register by register (rule R181). -/
theorem packRegs_eq_flatMap (vs : List Word) : packRegs vs = vs.flatMap fun v => [hi8 v, lo8 v] := by
  induction vs with
  | nil => rfl
  | cons v vs ih => simp [packRegs, ih]

/-- Two bytes a register (rule R181). -/
@[simp] theorem packRegs_length (vs : List Word) : (packRegs vs).length = 2 * vs.length := by
  induction vs with
  | nil => rfl
  | cons v vs ih =>
    simp only [packRegs, List.length_cons, ih]
    omega

/-- As many registers as are asked for (rule R203). -/
@[simp] theorem unpackRegs_length (data : List Byte) (q : Nat) : (unpackRegs data q).length = q := by
  simp [unpackRegs]

/-- The first two bytes are the first register (rule R203). -/
theorem unpackRegs_cons_cons (h l : Byte) (data : List Byte) (q : Nat) :
    unpackRegs (h :: l :: data) (q + 1) = be16 h l :: unpackRegs data q := by
  simp [unpackRegs, List.range_succ_eq_map, Function.comp_def, Nat.mul_add]

/-- Registers survive the wire form (rules R181, R203). -/
theorem unpackRegs_packRegs (vs : List Word) : unpackRegs (packRegs vs) vs.length = vs := by
  induction vs with
  | nil => rfl
  | cons v vs ih => rw [packRegs, List.length_cons, unpackRegs_cons_cons, ih, be16_hi8_lo8]

/-- So do the bytes of registers (rules R181, R203). -/
theorem packRegs_unpackRegs : ∀ {q : Nat} {data : List Byte}, data.length = 2 * q → packRegs (unpackRegs data q) = data
  | 0, data, h => by rw [List.length_eq_zero_iff.1 h]; rfl
  | q + 1, [], h => by simp only [List.length_nil] at h; omega
  | q + 1, [_], h => by simp only [List.length_singleton] at h; omega
  | q + 1, x :: y :: data, h => by
    have hrest : data.length = 2 * q := by simp only [List.length_cons] at h; omega
    rw [unpackRegs_cons_cons, packRegs, hi8_be16, lo8_be16, packRegs_unpackRegs hrest]

/-! ### Bits -/

/-- Bit `i` of a packed byte is bit `i` of the list (rule R55). -/
theorem packByte_getLsbD (i : Nat) : ∀ (n : Nat) (bits : List Bit), n ≤ 8 →
    (packByte n bits).getLsbD i = (decide (i < n) && (bits.getD i 0#1).getLsbD 0)
  | 0, bits, _ => by simp [packByte]
  | n + 1, [], _ => by simp [packByte]
  | n + 1, b :: bits, hn => by
    rw [packByte, BitVec.getLsbD_or, BitVec.getLsbD_shiftLeft, packByte_getLsbD (i - 1) n bits (by omega)]
    cases i with
    | zero => simp
    | succ i =>
      by_cases hi : i < n
      · have hi8 : i + 1 < 8 := by omega
        simp [hi, hi8]
      · simp [hi]

/-- One byte for every eight bits begun (rule R180). -/
@[simp] theorem packBits_length (bits : List Bit) : (packBits bits).length = (bits.length + 7) / 8 := by
  simp [packBits, ceilDiv]

/-- Bit `i` of byte `j` of the packed bits is bit `8j + i` of the list, zero where there is none (rules R55, R180). -/
theorem packBits_getLsbD (bits : List Bit) (j : Nat) {i : Nat} (hi : i < 8) :
    ((packBits bits).getD j 0#8).getLsbD i = (bits.getD (8 * j + i) 0#1).getLsbD 0 := by
  by_cases hj : j < ceilDiv bits.length 8
  · have hbyte : (packBits bits).getD j 0#8 = packByte 8 (bits.drop (8 * j)) := by simp [packBits, hj]
    rw [hbyte, packByte_getLsbD i 8 _ (Nat.le_refl 8)]
    simp [hi, List.getD_eq_getElem?_getD, List.getElem?_drop]
  · have hbeyond : bits.length ≤ 8 * j + i := by
      simp only [ceilDiv] at hj
      omega
    have hnone : (packBits bits).getD j 0#8 = 0#8 := by simp [packBits, hj]
    rw [hnone, List.getD_eq_default _ _ hbeyond]
    simp

/-- As many bits as are asked for (rule R204). -/
@[simp] theorem unpackBits_length (data : List Byte) (q : Nat) : (unpackBits data q).length = q := by
  simp [unpackBits]

/-- A one-bit field is its bit. -/
theorem extractLsb'_one (b : Byte) (i : Nat) : b.extractLsb' i 1 = BitVec.ofBool (b.getLsbD i) := by
  apply BitVec.eq_of_getLsbD_eq
  intro k hk
  obtain rfl : k = 0 := by omega
  cases h : b.getLsbD i <;> simp [h]

/-- Unpacked bit `k` is bit `k mod 8` of byte `k / 8` (rule R204). -/
theorem unpackBits_getD (data : List Byte) {q k : Nat} (hk : k < q) :
    (unpackBits data q).getD k 0#1 = BitVec.ofBool ((data.getD (k / 8) 0#8).getLsbD (k % 8)) := by
  simp only [unpackBits, List.getD_eq_getElem?_getD, List.getElem?_map, List.getElem?_range hk, Option.map_some,
    Option.getD_some, extractLsb'_one]

/-- A bit is given by its one binary digit. -/
theorem ofBool_getLsbD_zero (b : Bit) : BitVec.ofBool (b.getLsbD 0) = b := by
  revert b
  decide

/-- Bits survive packing (rules R180, R204). -/
theorem unpackBits_packBits (bits : List Bit) : unpackBits (packBits bits) bits.length = bits := by
  apply List.ext_getElem (unpackBits_length ..)
  intro k hk hk'
  rw [← List.getD_eq_getElem _ 0#1 hk, unpackBits_getD _ hk', packBits_getLsbD _ _ (Nat.mod_lt k (by decide)),
    ofBool_getLsbD_zero, Nat.div_add_mod, List.getD_eq_getElem _ _ hk']

/-- So do bytes whose unused bits are zero (rules R180, R204). -/
theorem packBits_unpackBits {data : List Byte} {q : Nat} (hlen : data.length = (q + 7) / 8)
    (hpad : ∀ k, q ≤ k → (data.getD (k / 8) 0#8).getLsbD (k % 8) = false) : packBits (unpackBits data q) = data := by
  apply List.ext_getElem (by simp [hlen])
  intro j hj hj'
  rw [← List.getD_eq_getElem _ 0#8 hj, ← List.getD_eq_getElem _ 0#8 hj']
  apply BitVec.eq_of_getLsbD_eq
  intro i hi
  have hdiv : (8 * j + i) / 8 = j := by omega
  have hmod : (8 * j + i) % 8 = i := by omega
  rw [packBits_getLsbD _ _ hi]
  by_cases hk : 8 * j + i < q
  · rw [unpackBits_getD data hk, hdiv, hmod]
    cases (data.getD j 0#8).getLsbD i <;> rfl
  · have hzero := hpad (8 * j + i) (Nat.le_of_not_lt hk)
    rw [hdiv, hmod] at hzero
    rw [hzero, List.getD_eq_default _ _ (by simpa using hk)]
    rfl

/-- Settles O21, by the two round trips. -/
theorem unpackUndoesPack : Obligations.UnpackUndoesPack :=
  ⟨unpackBits_packBits, unpackRegs_packRegs⟩

/-! ### A packed byte as a number -/

/-- The weighted sum of bits whose first is `b`. -/
theorem weightedSum_cons (b : Bit) (bits : List Bit) (n : Nat) :
    ((List.range (n + 1)).map fun i => ((b :: bits).getD i 0#1).toNat * 2 ^ i).sum =
      b.toNat + 2 * ((List.range n).map fun i => (bits.getD i 0#1).toNat * 2 ^ i).sum := by
  have hshift : ∀ i, ((b :: bits).getD (i + 1) 0#1).toNat * 2 ^ (i + 1) = 2 * ((bits.getD i 0#1).toNat * 2 ^ i) :=
    fun i => by rw [List.getD_cons_succ, Nat.pow_succ]; ring
  rw [List.range_succ_eq_map, List.map_cons, List.map_map, List.sum_cons, ← List.sum_map_mul_left]
  simp only [Function.comp_def, Nat.succ_eq_add_one, hshift]
  simp

/-- A packed byte is the sum of its bits' weights (rule R55). -/
theorem packByte_eq_ofNat : ∀ (n : Nat) (bits : List Bit),
    packByte n bits = BitVec.ofNat 8 ((List.range n).map fun i => (bits.getD i 0#1).toNat * 2 ^ i).sum
  | 0, bits => by simp [packByte]
  | n + 1, [] => by simp [packByte]
  | n + 1, b :: bits => by
    have hdisjoint : b.setWidth 8 &&& (packByte n bits <<< 1) = 0#8 := by
      apply BitVec.eq_of_getLsbD_eq
      intro i _
      cases i <;> simp
    have hdouble : packByte n bits <<< 1 = 2#8 * packByte n bits := by
      rw [BitVec.shiftLeft_eq_mul_twoPow, BitVec.mul_comm]
      rfl
    rw [packByte, ← BitVec.add_eq_or_of_and_eq_zero _ _ hdisjoint, hdouble, packByte_eq_ofNat n bits, weightedSum_cons,
      BitVec.ofNat_add, BitVec.ofNat_mul, BitVec.ofNat_toNat]

/-- The packed elements of a range of a bit table, byte by byte (rules R55, R180). -/
theorem packBits_memRead (m : Cells 1) (start q : Nat) :
    packBits (memRead m start q) = (List.range ((q + 7) / 8)).map (packedByte m start q) := by
  have hbit : ∀ j i, ((memRead m start q).drop (8 * j)).getD i 0#1 =
      if 8 * j + i < q then cellRead m (start + (8 * j + i)) else 0#1 := fun j i => by
    rw [List.getD_eq_getElem?_getD, List.getElem?_drop, memRead_getElem?]
    split <;> rfl
  have hbyte : ∀ j, packByte 8 ((memRead m start q).drop (8 * j)) = packedByte m start q j := fun j => by
    simp only [packByte_eq_ofNat, packedByte, hbit]
    congr! 4 with i
    split <;> simp
  simp only [packBits, memRead_length, hbyte, ceilDiv]
  rfl

end Sys2Proof.Machine
end

section
/-! Requests that pass their checks (43_read_functions.md, 44_write_functions.md): what each reads or writes, and the
response it hands over. -/

namespace Sys2Proof.Machine

/-! ### When the checks pass (rules R163, R164) -/

/-- The range check passes exactly within the extent (rule R163). -/
@[simp] theorem checkRange_eq_none_iff {n a q : Nat} : checkRange n a q = none ↔ a + q ≤ n := by
  simp [checkRange]

/-- The quantity check passes exactly within its limits (rule R164). -/
@[simp] theorem checkQty_eq_none_iff {q lo hi : Nat} : checkQty q lo hi = none ↔ lo ≤ q ∧ q ≤ hi := by
  simp [checkQty]

/-- The coil value check passes exactly on and off (rule R164). -/
@[simp] theorem checkCoilValue_eq_none_iff {v : Word} :
    checkCoilValue v = none ↔ v = 0xFF00#16 ∨ v = 0x0000#16 := by
  simp only [checkCoilValue, ite_eq_right_iff, reduceCtorEq, imp_false]
  tauto

/-- The byte count check passes exactly on the expected count (rule R164). -/
@[simp] theorem checkBc_eq_none_iff {bc expected : Nat} : checkBc bc expected = none ↔ bc = expected := by
  simp [checkBc]

/-- The tables are canonical one by one (log entry 4). -/
theorem memory_wf_iff (s : State) : Memory.wf s = true ↔
    cellsWf 0 s.par.nCO s.co = true ∧ cellsWf 0 s.par.nDI s.di = true ∧
    cellsWf 0 s.par.nHR s.hr = true ∧ cellsWf 0 s.par.nIR s.ir = true := by
  simp only [Memory.wf, Bool.and_eq_true, and_assoc]

/-- Canonical tables have canonical coils. -/
theorem cellsWf_co {s : State} (h : Memory.wf s = true) : cellsWf 0 s.par.nCO s.co = true := by
  obtain ⟨hco, -, -, -⟩ := (memory_wf_iff s).1 h
  exact hco

/-- Canonical tables have canonical holding registers. -/
theorem cellsWf_hr {s : State} (h : Memory.wf s = true) : cellsWf 0 s.par.nHR s.hr = true := by
  obtain ⟨-, -, hhr, -⟩ := (memory_wf_iff s).1 h
  exact hhr

/-- An addressed request whose checks pass is answered under its own address and function code, after its effect
(rules R167, R231). -/
theorem runFunction_pass {addr : Byte} {s : State} (hstation : addr = s.cfg.station) (hzero : addr ≠ 0#8)
    {failure : Option ExcCode} (hpass : failure = none) {effect : State → State}
    (hcfg : (effect s).cfg = s.cfg) (fc : Byte) (data : List Byte) :
    runFunction addr fc failure effect data s = .next (answered (appendCrc (addr :: fc :: data)) (effect s)) := by
  rw [hpass, runFunction_normal hstation hzero, hcfg, hstation]

/-! ### Reads -/

/-- The payload of a bit read: the byte count and the packed elements (rules R81, R182). -/
theorem readPayload_bits (m : Cells 1) (start q : Nat) : readPayload (packBits (memRead m start q)) =
    BitVec.ofNat 8 ((q + 7) / 8) :: (List.range ((q + 7) / 8)).map (packedByte m start q) := by
  rw [readPayload, packBits_length, memRead_length, packBits_memRead]

/-- The payload of a register read: the byte count and each register high byte first (rules R81, R184). -/
theorem readPayload_regs (m : Cells 16) (start q : Nat) : readPayload (packRegs (memRead m start q)) =
    BitVec.ofNat 8 (2 * q) :: (List.range q).flatMap fun k =>
      [hi8 (cellRead m (start + k)), lo8 (cellRead m (start + k))] := by
  rw [readPayload, packRegs_length, memRead_length, packRegs_eq_flatMap, memRead_eq_map, List.flatMap_map]

/-- Settles O9, by the function each bit read runs. -/
theorem bitReadsAnswerPackedElements : Obligations.BitReadsAnswerPackedElements := by
  intro s addr start qty hstation hzero hlo hhi
  rw [← readPayload_bits, ← readPayload_bits]
  refine ⟨fun hrange => ?_, fun hrange => ?_⟩
  · exact runFunction_pass hstation hzero (by simp [hrange, hlo, hhi, maxReadBits]) rfl ..
  · exact runFunction_pass hstation hzero (by simp [hrange, hlo, hhi, maxReadBits]) rfl ..

/-- Settles O10, by the function each register read runs. -/
theorem registerReadsAnswerBigEndian : Obligations.RegisterReadsAnswerBigEndian := by
  intro s addr start qty hstation hzero hlo hhi
  rw [← readPayload_regs, ← readPayload_regs]
  refine ⟨fun hrange => ?_, fun hrange => ?_⟩
  · exact runFunction_pass hstation hzero (by simp [hrange, hlo, hhi, maxReadRegs]) rfl ..
  · exact runFunction_pass hstation hzero (by simp [hrange, hlo, hhi, maxReadRegs]) rfl ..

/-! ### The arms of the opcode map that write or refuse, and the writes -/

/-- The arm of 0x05 (rule R200). -/
theorem exec_wrco (addr : Byte) (address value : Word) (s : State) : exec (.wrco addr address value) s =
    runFunction addr 0x05#8 (firstFailure [checkRange s.par.nCO address.toNat 1, checkCoilValue value])
      (fun u => { u with co := cellWrite u.co address.toNat (coilOf value) })
      (fieldBytes address ++ fieldBytes value) s := rfl

/-- The arm of 0x06 (rule R201). -/
theorem exec_wrhr (addr : Byte) (address value : Word) (s : State) : exec (.wrhr addr address value) s =
    runFunction addr 0x06#8 (firstFailure [checkRange s.par.nHR address.toNat 1])
      (fun u => { u with hr := cellWrite u.hr address.toNat value })
      (fieldBytes address ++ fieldBytes value) s := rfl

/-- The arm of 0x0F (rule R202). -/
theorem exec_wmco (addr : Byte) (start qty : Word) (data : List Byte) (s : State) : exec (.wmco addr start qty data) s =
    runFunction addr 0x0F#8
      (firstFailure [checkRange s.par.nCO start.toNat qty.toNat, checkQty qty.toNat 1 maxWriteBits,
        checkBc data.length (ceilDiv qty.toNat 8)])
      (fun u => { u with co := memWrite u.co start.toNat (unpackBits data qty.toNat) })
      (fieldBytes start ++ fieldBytes qty) s := rfl

/-- The arm of 0x10 (rule R203). -/
theorem exec_wmhr (addr : Byte) (start qty : Word) (data : List Byte) (s : State) : exec (.wmhr addr start qty data) s =
    runFunction addr 0x10#8
      (firstFailure [checkRange s.par.nHR start.toNat qty.toNat, checkQty qty.toNat 1 maxWriteRegs,
        checkBc data.length (2 * qty.toNat)])
      (fun u => { u with hr := memWrite u.hr start.toNat (unpackRegs data qty.toNat) })
      (fieldBytes start ++ fieldBytes qty) s := rfl

/-- The arm of every other code (rule R170). -/
theorem exec_illegal (addr fc : Byte) (payload : List Byte) (s : State) :
    exec (.illegal addr fc payload) s = runFunction addr fc (some .illegalFunction) id [] s := rfl

/-- Settles O11, by the function each single write runs and the one cell it writes. -/
theorem singleWritesWriteAndEcho : Obligations.SingleWritesWriteAndEcho := by
  intro s addr address value hwf hstation hzero
  refine ⟨fun hrange hvalue => ⟨cellWrite s.co address.toNat (coilOf value), ?_, fun a => ?_⟩,
    fun hrange => ⟨cellWrite s.hr address.toNat value, ?_, fun a => ?_⟩⟩
  · rw [exec_wrco]
    exact runFunction_pass hstation hzero (by simp [hvalue, Nat.succ_le_of_lt hrange]) rfl ..
  · exact cellRead_cellWrite _ _ a (cellsWf_co hwf)
  · rw [exec_wrhr]
    exact runFunction_pass hstation hzero (by simp [Nat.succ_le_of_lt hrange]) rfl ..
  · exact cellRead_cellWrite _ _ a (cellsWf_hr hwf)

/-- An addressed 0x0F request that passes its checks (rule R202). -/
theorem exec_wmco_pass {s : State} {addr : Byte} {start qty : Word} {data : List Byte}
    (hstation : addr = s.cfg.station) (hzero : addr ≠ 0#8) (hrange : start.toNat + qty.toNat ≤ s.par.nCO)
    (hlo : 1 ≤ qty.toNat) (hhi : qty.toNat ≤ 1968) (hlen : data.length = (qty.toNat + 7) / 8) :
    exec (.wmco addr start qty data) s =
      .next (answered (appendCrc [addr, 0x0F#8, hi8 start, lo8 start, hi8 qty, lo8 qty])
        { s with co := memWrite s.co start.toNat (unpackBits data qty.toNat) }) := by
  rw [exec_wmco]
  exact runFunction_pass hstation hzero (by simp [hrange, hlo, hhi, hlen, maxWriteBits, ceilDiv]) rfl ..

/-- An addressed 0x10 request that passes its checks (rule R203). -/
theorem exec_wmhr_pass {s : State} {addr : Byte} {start qty : Word} {data : List Byte}
    (hstation : addr = s.cfg.station) (hzero : addr ≠ 0#8) (hrange : start.toNat + qty.toNat ≤ s.par.nHR)
    (hlo : 1 ≤ qty.toNat) (hhi : qty.toNat ≤ 123) (hlen : data.length = 2 * qty.toNat) :
    exec (.wmhr addr start qty data) s =
      .next (answered (appendCrc [addr, 0x10#8, hi8 start, lo8 start, hi8 qty, lo8 qty])
        { s with hr := memWrite s.hr start.toNat (unpackRegs data qty.toNat) }) := by
  rw [exec_wmhr]
  exact runFunction_pass hstation hzero (by simp [hrange, hlo, hhi, hlen, maxWriteRegs]) rfl ..

/-- Settles O12, by the elements of the range written from the unpacked bits. -/
theorem multipleCoilsWritten : Obligations.MultipleCoilsWritten := by
  intro s addr start qty data hwf hstation hzero hrange hlo hhi hlen
  refine ⟨_, exec_wmco_pass hstation hzero hrange hlo hhi hlen, fun a => ?_⟩
  rw [cellRead_memWrite a _ _ (cellsWf_co hwf), unpackBits_length]
  split
  · next hin => exact unpackBits_getD data (by omega)
  · rfl

/-- Unpacked register `k` is bytes `2k` and `2k + 1` (rule R203). -/
theorem unpackRegs_getD (data : List Byte) {q k : Nat} (hk : k < q) :
    (unpackRegs data q).getD k 0#16 = be16 (data.getD (2 * k) 0#8) (data.getD (2 * k + 1) 0#8) := by
  simp only [unpackRegs, List.getD_eq_getElem?_getD, List.getElem?_map, List.getElem?_range hk, Option.map_some,
    Option.getD_some]

/-- Settles O13, by the elements of the range written from the unpacked registers. -/
theorem multipleRegistersWritten : Obligations.MultipleRegistersWritten := by
  intro s addr start qty data hwf hstation hzero hrange hlo hhi hlen
  refine ⟨_, exec_wmhr_pass hstation hzero hrange hlo hhi hlen, fun a => ?_⟩
  rw [cellRead_memWrite a _ _ (cellsWf_hr hwf), unpackRegs_length]
  split
  · next hin => exact unpackRegs_getD data (by omega)
  · rfl

/-! ### Reading back what was written (rule R65) -/

/-- Settles O19: the range reads back the unpacked registers, and they pack to the data they came from. -/
theorem writtenRegistersReadBack : Obligations.WrittenRegistersReadBack := by
  intro s t u addr start qty data hwf hstation hzero hrange hlo hhi hlen hwrite huhr hupar hucfg
  obtain rfl := Host.Outcome.next.inj ((exec_wmhr_pass hstation hzero hrange hlo hhi hlen).symm.trans hwrite)
  have hread : memRead u.hr start.toNat qty.toNat = unpackRegs data qty.toNat := by
    have hback := memRead_memWrite (cellsWf_hr hwf) start.toNat (unpackRegs data qty.toNat)
    rw [unpackRegs_length] at hback
    rw [huhr]
    exact hback
  have hpayload : readPayload (packRegs (memRead u.hr start.toNat qty.toNat)) =
      BitVec.ofNat 8 (2 * qty.toNat) :: data := by
    rw [hread, packRegs_unpackRegs hlen, readPayload, hlen]
  have hmax : qty.toNat ≤ maxReadRegs := Nat.le_trans hhi (by decide)
  rw [← hpayload]
  exact runFunction_pass (hucfg ▸ hstation) hzero (by simp [hupar, hrange, hlo, hmax]) rfl ..

/-- Settles O20: the range reads back the unpacked bits, and with no padding they pack to the data they came from. -/
theorem writtenCoilsReadBack : Obligations.WrittenCoilsReadBack := by
  intro s t u addr start qty data hwf hstation hzero hrange hlo hhi hlen hpad hwrite huco hupar hucfg
  obtain rfl := Host.Outcome.next.inj ((exec_wmco_pass hstation hzero hrange hlo hhi hlen).symm.trans hwrite)
  have hread : memRead u.co start.toNat qty.toNat = unpackBits data qty.toNat := by
    have hback := memRead_memWrite (cellsWf_co hwf) start.toNat (unpackBits data qty.toNat)
    rw [unpackBits_length] at hback
    rw [huco]
    exact hback
  have hpayload : readPayload (packBits (memRead u.co start.toNat qty.toNat)) =
      BitVec.ofNat 8 data.length :: data := by
    rw [hread, packBits_unpackBits hlen hpad, readPayload]
  have hmax : qty.toNat ≤ maxReadBits := Nat.le_trans hhi (by decide)
  rw [← hpayload]
  exact runFunction_pass (hucfg ▸ hstation) hzero (by simp [hupar, hrange, hlo, hmax]) rfl ..

end Sys2Proof.Machine
end

section
/-! Everything a request can do (42_dispatch.md, 45_response_encoder.md): it writes coils and holding registers within
their extents, and sends nothing or one frame of this station. -/

namespace Sys2Proof.Machine

/-- What a response frame of station `st` is (rules R231, R232, R234): its address first, a good CRC, 5 to 255 bytes. -/
def StationFrame (st : Byte) (f : List Byte) : Prop :=
  f.head? = some st ∧ crcOk f = true ∧ 5 ≤ f.length ∧ f.length ≤ 255

/-- An exception response is such a frame, and so is a normal one with 1 to 251 payload bytes (rules R84, R230). -/
theorem stationFrame_encodeResponse (st : Byte) {r : Response}
    (h : ∀ fc data, r = .normal fc data → 1 ≤ data.length ∧ data.length ≤ 251) :
    StationFrame st (encodeResponse st r) := by
  cases r with
  | normal fc data =>
    obtain ⟨hlo, hhi⟩ := h fc data rfl
    have hlen : (encodeResponse st (.normal fc data)).length = data.length + 4 := by simp [encodeResponse, appendCrc]
    exact ⟨rfl, crcOk_encodeResponse .., by omega, by omega⟩
  | exc fc c =>
    have hlen : (encodeResponse st (.exc fc c)).length = 5 := rfl
    exact ⟨rfl, crcOk_encodeResponse .., by omega, by omega⟩

/-- What a request may make of a state `s`: coils and holding registers written, in canonical form if `s` was, and then
nothing sent or one frame of the station. -/
inductive ExecOutcome (s : State) : State → Prop where
  | silent (co : Cells 1) (hr : Cells 16)
      (hwf : Memory.wf s = true → Memory.wf { s with co := co, hr := hr } = true) :
      ExecOutcome s { s with co := co, hr := hr }
  | answers (co : Cells 1) (hr : Cells 16) (f : List Byte)
      (hwf : Memory.wf s = true → Memory.wf { s with co := co, hr := hr } = true)
      (hframe : StationFrame s.cfg.station f) :
      ExecOutcome s (answered f { s with co := co, hr := hr })

/-- A function of the opcode map has such an outcome, when its effect and its data are as a request's are. -/
theorem runFunction_outcome {addr fc : Byte} {failure : Option ExcCode} {effect : State → State} {data : List Byte}
    {s t : State} (heffect : ∃ co hr, effect s = { s with co := co, hr := hr })
    (hwf : failure = none → Memory.wf s = true → Memory.wf (effect s) = true)
    (hdata : failure = none → 1 ≤ data.length ∧ data.length ≤ 251)
    (h : runFunction addr fc failure effect data s = .next t) : ExecOutcome s t := by
  obtain ⟨co, hr, heffect⟩ := heffect
  rcases runFunction_cases h with ⟨-, ht⟩ | ⟨-, c, -, ht⟩ | ⟨-, hpass, ht⟩
  · obtain rfl := Host.Outcome.next.inj ht
    exact .silent t.co t.hr id
  · obtain rfl := Host.Outcome.next.inj ht
    rcases raiseException_cases addr fc c s with ⟨-, hraise⟩ | ⟨-, hraise⟩
    · rw [hraise]
      exact .silent s.co s.hr id
    · rw [hraise]
      exact .answers s.co s.hr _ id (stationFrame_encodeResponse s.cfg.station (r := .exc fc c) nofun)
  · obtain rfl := Host.Outcome.next.inj ht
    have hkeeps := heffect ▸ hwf hpass
    rw [heffect]
    by_cases hbroadcast : addr = 0#8
    · rw [hbroadcast, deliver_broadcast]
      exact .silent co hr hkeeps
    · rw [deliver_addressed hbroadcast]
      refine .answers co hr _ hkeeps (stationFrame_encodeResponse s.cfg.station ?_)
      rintro fc' data' hr
      cases hr
      exact hdata hpass

/-- The tables stay canonical when the coils do. -/
theorem memory_wf_setCo {s : State} {m : Cells 1} (hm : cellsWf 0 s.par.nCO m = true) (h : Memory.wf s = true) :
    Memory.wf { s with co := m } = true := by
  obtain ⟨-, hdi, hhr, hir⟩ := (memory_wf_iff s).1 h
  exact (memory_wf_iff _).2 ⟨hm, hdi, hhr, hir⟩

/-- The tables stay canonical when the holding registers do. -/
theorem memory_wf_setHr {s : State} {m : Cells 16} (hm : cellsWf 0 s.par.nHR m = true) (h : Memory.wf s = true) :
    Memory.wf { s with hr := m } = true := by
  obtain ⟨hco, hdi, -, hir⟩ := (memory_wf_iff s).1 h
  exact (memory_wf_iff _).2 ⟨hco, hdi, hm, hir⟩

/-- The payload of a bit read within the quantity limit (rules R9, R81). -/
theorem readPayload_bits_length {m : Cells 1} {a q : Nat} (hq : q ≤ maxReadBits) :
    1 ≤ (readPayload (packBits (memRead m a q))).length ∧
      (readPayload (packBits (memRead m a q))).length ≤ 251 := by
  simp only [maxReadBits] at hq
  simp only [readPayload, List.length_cons, packBits_length, memRead_length]
  omega

/-- The payload of a register read within the quantity limit (rules R9, R81). -/
theorem readPayload_regs_length {m : Cells 16} {a q : Nat} (hq : q ≤ maxReadRegs) :
    1 ≤ (readPayload (packRegs (memRead m a q))).length ∧
      (readPayload (packRegs (memRead m a q))).length ≤ 251 := by
  simp only [maxReadRegs] at hq
  simp only [readPayload, List.length_cons, packRegs_length, memRead_length]
  omega

/-- The payload of a write response is its two fields (rules R82, R83). -/
theorem fieldPair_length (x y : Word) :
    1 ≤ (fieldBytes x ++ fieldBytes y).length ∧ (fieldBytes x ++ fieldBytes y).length ≤ 251 := by
  simp [fieldBytes]

/-- Everything a request can do (rules R141, R166, R167, R206, R231). -/
theorem exec_outcome {i : Instr} {s t : State} (h : exec i s = .next t) : ExecOutcome s t := by
  cases i with
  | rdco _ start qty | rddi _ start qty =>
    refine runFunction_outcome ⟨s.co, s.hr, rfl⟩ (fun _ => id) (fun hpass => readPayload_bits_length ?_) h
    simp only [firstFailure_pair, Option.or_eq_none_iff, checkQty_eq_none_iff] at hpass
    obtain ⟨-, -, hmax⟩ := hpass
    exact hmax
  | rdhr _ start qty | rdir _ start qty =>
    refine runFunction_outcome ⟨s.co, s.hr, rfl⟩ (fun _ => id) (fun hpass => readPayload_regs_length ?_) h
    simp only [firstFailure_pair, Option.or_eq_none_iff, checkQty_eq_none_iff] at hpass
    obtain ⟨-, -, hmax⟩ := hpass
    exact hmax
  | wrco _ address value =>
    rw [exec_wrco] at h
    refine runFunction_outcome ⟨_, s.hr, rfl⟩ (fun hpass hwf => memory_wf_setCo (s := s) ?_ hwf)
      (fun _ => fieldPair_length ..) h
    simp only [firstFailure_pair, Option.or_eq_none_iff, checkRange_eq_none_iff] at hpass
    obtain ⟨hrange, -⟩ := hpass
    exact cellsWf_cellWrite _ (Nat.lt_of_succ_le hrange) (Nat.zero_le _) (cellsWf_co hwf)
  | wrhr _ address value =>
    rw [exec_wrhr] at h
    refine runFunction_outcome ⟨s.co, _, rfl⟩ (fun hpass hwf => memory_wf_setHr (s := s) ?_ hwf)
      (fun _ => fieldPair_length ..) h
    simp only [firstFailure_single, checkRange_eq_none_iff] at hpass
    exact cellsWf_cellWrite _ (Nat.lt_of_succ_le hpass) (Nat.zero_le _) (cellsWf_hr hwf)
  | wmco _ start qty data =>
    rw [exec_wmco] at h
    refine runFunction_outcome ⟨_, s.hr, rfl⟩ (fun hpass hwf => memory_wf_setCo (s := s) ?_ hwf)
      (fun _ => fieldPair_length ..) h
    simp only [firstFailure_triple, Option.or_eq_none_iff, checkRange_eq_none_iff] at hpass
    obtain ⟨⟨hrange, -⟩, -⟩ := hpass
    exact cellsWf_memWrite _ (by rwa [unpackBits_length]) (cellsWf_co hwf)
  | wmhr _ start qty data =>
    rw [exec_wmhr] at h
    refine runFunction_outcome ⟨s.co, _, rfl⟩ (fun hpass hwf => memory_wf_setHr (s := s) ?_ hwf)
      (fun _ => fieldPair_length ..) h
    simp only [firstFailure_triple, Option.or_eq_none_iff, checkRange_eq_none_iff] at hpass
    obtain ⟨⟨hrange, -⟩, -⟩ := hpass
    exact cellsWf_memWrite _ (by rwa [unpackRegs_length]) (cellsWf_hr hwf)
  | illegal _ fc payload =>
    rw [exec_illegal] at h
    exact runFunction_outcome ⟨s.co, s.hr, rfl⟩ (fun _ => id) (fun hpass => by cases hpass) h

/-- Settles O18, by the outcomes of a request. -/
theorem everyResponseIsAStationFrame : Obligations.EveryResponseIsAStationFrame := by
  intro s t i h
  cases exec_outcome h with
  | silent co hr => exact .inl rfl
  | answers co hr f _ hframe => exact .inr ⟨f, rfl, hframe⟩

end Sys2Proof.Machine
end

section
/-! The step, event by event (41_frame_parser.md, 46_tx_enable.md, 47_host_ports.md): what a step with a given next
event answers, in terms of what `ADVANCE` leaves at the event's time. -/

namespace Sys2Proof.Machine

/-! ### Taking the next event -/

/-- In service is every bus state but two (rule R270). -/
theorem inService_eq_true_iff (s : State) :
    inService s = true ↔ s.bus ≠ .unconfigured ∧ s.bus ≠ .configFault := by
  simp [inService]

/-- An accepted event leaves what `handle` says (rule R5). -/
theorem step_accept {s u : State} {e : Event} {rest : List Event} (hinbox : s.inbox = e :: rest)
    (h : handle e (popEvent rest s) = .next (some u)) : step s = .next u := by
  simp only [step, runInbox, hinbox, takeEvent, h]

/-- A refused event changes the environment's two fields only (rule R270). -/
theorem step_refuse {s : State} {e : Event} {rest : List Event} (hinbox : s.inbox = e :: rest)
    (h : handle e (popEvent rest s) = .next none) : step s = .next (refuseEvent rest s) := by
  simp only [step, runInbox, hinbox, takeEvent, h]

/-- What a step with a next event does (rules R5, R270): `RESET` resets, and every other event is handled or refused. -/
theorem step_event_cases {s t : State} {e : Event} {rest : List Event} (hinbox : s.inbox = e :: rest)
    (hstep : step s = .next t) :
    (∃ c t0, e = .reset c t0 ∧ t = resetBlock c t0 (popEvent rest s)) ∨
    (isReset e = false ∧ (handle e (popEvent rest s) = .next (some t) ∨ t = refuseEvent rest s)) := by
  have htake : takeEvent e rest s = .next t := by simpa only [step, runInbox, hinbox] using hstep
  have hcases := (takeEvent_cases htake).imp_right And.right
  cases e with
  | reset c t0 => exact .inl ⟨c, t0, rfl, (Host.Outcome.next.inj htake).symm⟩
  | rx | tick | txdone | reconfig | hostRead | hostWrite => exact .inr ⟨rfl, hcases⟩

/-- What every step keeps (rules R5, R270, R320): what `RESET` establishes, accepted events keep and refused events
leave. -/
theorem step_keeps {P : State → Prop} {s t : State} (hstep : step s = .next t) (hstart : P s)
    (hreset : ∀ c t0 rest, P (resetBlock c t0 (popEvent rest s))) (hrefuse : ∀ rest, P (refuseEvent rest s))
    (haccept : ∀ e rest, isReset e = false → handle e (popEvent rest s) = .next (some t) → P t) : P t := by
  rcases step_cases s with ⟨-, hidle⟩ | ⟨e, rest, hinbox, -⟩
  · exact Host.Outcome.next.inj (hidle.symm.trans hstep) ▸ hstart
  · rcases step_event_cases hinbox hstep with ⟨c, t0, rfl, rfl⟩ | ⟨hother, hhandle | rfl⟩
    · exact hreset c t0 rest
    · exact haccept e rest hother hhandle
    · exact hrefuse rest

/-- No event stops the block: it is accepted or refused (rules R270, R300). -/
theorem handle_next (e : Event) (s : State) : ∃ o, handle e s = .next o := by
  cases e with
  | reset c t0 => exact ⟨_, rfl⟩
  | hostRead table a => exact ⟨_, rfl⟩
  | hostWrite table a v => exact ⟨_, rfl⟩
  | rx b t =>
    obtain ⟨v, hv⟩ := advance_next t (setTime t s)
    by_cases h : timely t s = true
    · exact ⟨_, by rw [handle, rxEvent, if_pos h, hv, andThen_next]⟩
    · exact ⟨_, by rw [handle, rxEvent, if_neg h]⟩
  | tick t =>
    obtain ⟨v, hv⟩ := advance_next t (setTime t s)
    by_cases h : timely t s = true
    · exact ⟨_, by rw [handle, tickEvent, if_pos h, hv, andThen_next]⟩
    · exact ⟨_, by rw [handle, tickEvent, if_neg h]⟩
  | txdone t =>
    obtain ⟨v, hv⟩ := advance_next t (setTime t s)
    by_cases h : s.bus = .transmitting ∧ s.tNow ≤ t
    · exact ⟨_, by rw [handle, txdoneEvent, if_pos h, hv, andThen_next]⟩
    · exact ⟨_, by rw [handle, txdoneEvent, if_neg h]⟩
  | reconfig c t =>
    obtain ⟨v, hv⟩ := advance_next t (setTime t s)
    by_cases h : (timely t s && validCfg c) = true
    · exact ⟨_, by rw [handle, reconfigEvent, if_pos h, hv, andThen_next]⟩
    · exact ⟨_, by rw [handle, reconfigEvent, if_neg h]⟩

/-- Settles O48: an event is accepted or refused, and without one nothing happens. -/
theorem everyStepAnswersNext : Obligations.EveryStepAnswersNext := by
  intro s
  refine ⟨?_, fun hempty => by simp only [step, runInbox, hempty]⟩
  rcases step_cases s with ⟨-, h⟩ | ⟨e, rest, hinbox, -⟩
  · exact ⟨s, h⟩
  · obtain ⟨o, ho⟩ := handle_next e (popEvent rest s)
    cases o with
    | none => exact ⟨_, step_refuse hinbox ho⟩
    | some u => exact ⟨u, step_accept hinbox ho⟩

/-! ### Timestamped events -/

section
variable {s u : State} {t : Nat} {rest : List Event}

/-- An accepted `TICK` leaves what `ADVANCE` leaves (rule R128). -/
theorem step_tick (hservice : inService s = true) (htime : s.tNow ≤ t) (hinbox : s.inbox = .tick t :: rest)
    (h : advance t (setTime t (popEvent rest s)) = .next u) : step s = .next u := by
  refine step_accept hinbox ?_
  rw [handle, tickEvent, if_pos (timely_eq_true (s := popEvent rest s) |>.2 ⟨hservice, htime⟩), h, andThen_next]

/-- An accepted `RX` takes its byte after `ADVANCE` (rule R121). -/
theorem step_rx {b : Byte} (hservice : inService s = true) (htime : s.tNow ≤ t) (hinbox : s.inbox = .rx b t :: rest)
    (h : advance t (setTime t (popEvent rest s)) = .next u) : step s = .next (receiveByte b t u) := by
  refine step_accept hinbox ?_
  rw [handle, rxEvent, if_pos (timely_eq_true (s := popEvent rest s) |>.2 ⟨hservice, htime⟩), h, andThen_next]

/-- A valid `RECONFIG` in time reconfigures after `ADVANCE`, unless that leaves the transmit window (rules
R275, R277). -/
theorem step_reconfig {c : Cfg} (hservice : inService s = true) (htime : s.tNow ≤ t) (hvalid : validCfg c = true)
    (hinbox : s.inbox = .reconfig c t :: rest) (h : advance t (setTime t (popEvent rest s)) = .next u) :
    step s = .next (if inWindow u then refuseEvent rest s else reconfigure c t u) := by
  have htimely : (timely t (popEvent rest s) && validCfg c) = true :=
    Bool.and_eq_true_iff.2 ⟨timely_eq_true.2 ⟨hservice, htime⟩, hvalid⟩
  have hhandle : handle (.reconfig c t) (popEvent rest s) =
      .next (if inWindow u then none else some (reconfigure c t u)) := by
    rw [handle, reconfigEvent, if_pos htimely, h, andThen_next]
  split
  · next hwindow => exact step_refuse hinbox (by rw [hhandle, if_pos hwindow])
  · next hwindow => exact step_accept hinbox (by rw [hhandle, if_neg hwindow])

end

/-! ### The deadlines, bus state by bus state (rules R120, R122, R123, R253) -/

section
variable {s : State} {t : Nat}

/-- No deadline stands while a frame may start. -/
theorem advance_idleReady (hbus : s.bus = .idleReady) (t : Nat) : advance t s = .next s := by
  simp [advance, hbus]

/-- No deadline stands while a response is sent. -/
theorem advance_transmitting (hbus : s.bus = .transmitting) (t : Nat) : advance t s = .next s := by
  simp [advance, hbus]

/-- Nothing happens before the deadline (rule R120). -/
theorem advance_early (hsilence : s.bus = .idleResync ∨ s.bus = .receiving → t - s.tLast < s.tIF)
    (hguard : s.bus = .guardWait → t - s.tFlush < s.par.tGuard) : advance t s = .next s := by
  rcases advance_cases t s with ⟨hbus, hover, -⟩ | ⟨hbus, hover, -⟩ | ⟨hbus, hover, -⟩ | ⟨hsame, -⟩
  · exact absurd (hsilence (.inl hbus)) (Nat.not_lt.2 hover)
  · exact absurd (hsilence (.inr hbus)) (Nat.not_lt.2 hover)
  · exact absurd (hguard hbus) (Nat.not_lt.2 hover)
  · exact hsame

/-- Enough silence ends the resynchronization wait (rule R122). -/
theorem advance_resync_over (hbus : s.bus = .idleResync) (hover : s.tIF ≤ t - s.tLast) :
    advance t s = .next { s with bus := .idleReady } := by
  simp [advance, hbus, hover]

/-- Enough silence ends the frame (rule R123). -/
theorem advance_receiving_over (hbus : s.bus = .receiving) (hover : s.tIF ≤ t - s.tLast) :
    advance t s = complete s := by
  simp [advance, hbus, hover]

/-- The end of the guard time releases the pin (rule R253). -/
theorem advance_guard_over (hbus : s.bus = .guardWait) (hover : s.par.tGuard ≤ t - s.tFlush) :
    advance t s = .next (release s) := by
  simp [advance, hbus, hover]

/-- The end of an accepted frame runs its request (rules R123, R140). -/
theorem advance_completes {i : Instr} (hbus : s.bus = .receiving) (hover : s.tIF ≤ t - s.tLast)
    (hdec : decode s.buf = .ok i) (rest : List Event) :
    advance t (setTime t (popEvent rest s)) = exec i (completing t rest s) := by
  rw [advance_receiving_over (s := setTime t (popEvent rest s)) hbus hover]
  simp only [complete, setTime_buf, popEvent_buf, hdec]
  rfl

/-- The end of a rejected frame drops it (rules R142, R143, R162). -/
theorem advance_drops {r : Reject} (hbus : s.bus = .receiving) (hover : s.tIF ≤ t - s.tLast)
    (hdec : decode s.buf = .error r) (rest : List Event) :
    advance t (setTime t (popEvent rest s)) = .next (completing t rest s) := by
  rw [advance_receiving_over (s := setTime t (popEvent rest s)) hbus hover]
  simp only [complete, setTime_buf, popEvent_buf, hdec]
  rfl

end

/-! ### The action of `RECONFIG` (rules R275, R276) -/

/-- Everything a `RECONFIG` sets. -/
theorem reconfigure_eq (c : Cfg) (t : Nat) (s : State) : reconfigure c t s = { s with
    cfg := c
    tIC := if c.baud = s.cfg.baud then s.tIC else timeoutIC s.par c.baud
    tIF := if c.baud = s.cfg.baud then s.tIF else timeoutIF s.par c.baud
    buf := [], tLast := t, bus := .idleResync, de := .receive
    out := s.out ++ (if c.dePresent then [.de c.deInverted] else []) } := by
  by_cases hbaud : c.baud = s.cfg.baud <;> cases hpin : c.dePresent <;>
    simp [reconfigure, retime, hbaud, hpin, emit, level_receive]

/-! ### Frames: completion and accumulation -/

/-- Settles O24, by the three events whose `ADVANCE` completes a frame. -/
theorem stepRunsDecodedRequest : Obligations.StepRunsDecodedRequest := by
  intro s t rest i hbus htime hover hdec
  have hservice : inService s = true := (inService_eq_true_iff s).2 (by simp [hbus])
  have hadvance := advance_completes hbus hover hdec rest
  refine ⟨fun hinbox => ?_, fun b u hinbox hu => ?_, fun c u hinbox hvalid hu => ?_⟩
  · obtain ⟨u, hu⟩ := exec_next i (completing t rest s)
    rw [hu, step_tick hservice htime hinbox (hadvance.trans hu)]
  · exact step_rx hservice htime hinbox (hadvance.trans hu)
  · exact step_reconfig hservice htime hvalid hinbox (hadvance.trans hu)

/-- Settles O25, by the three events whose `ADVANCE` drops the frame. -/
theorem rejectedFrameIsDroppedInSilence : Obligations.RejectedFrameIsDroppedInSilence := by
  intro s t rest r hbus htime hover hdec
  have hservice : inService s = true := (inService_eq_true_iff s).2 (by simp [hbus])
  have hadvance := advance_drops hbus hover hdec rest
  refine ⟨fun hinbox => step_tick hservice htime hinbox hadvance,
    fun b hinbox => step_rx hservice htime hinbox hadvance, fun c hinbox hvalid => ?_⟩
  rw [step_reconfig hservice htime hvalid hinbox hadvance, if_neg (by simp [inWindow]), reconfigure_eq]
  rfl

/-- Settles O26, since no deadline has expired. -/
theorem earlyTickChangesOnlyTime : Obligations.EarlyTickChangesOnlyTime :=
  fun _ _ _ hservice htime hinbox hsilence hguard =>
    step_tick hservice htime hinbox (advance_early hsilence hguard)

/-- Settles O55, by the deadline of the resynchronization wait. -/
theorem tickAfterSilenceEndsResync : Obligations.TickAfterSilenceEndsResync := by
  intro s t rest hbus htime hover hinbox
  have hservice : inService s = true := (inService_eq_true_iff s).2 (by simp [hbus])
  exact step_tick hservice htime hinbox (advance_resync_over hbus hover)

/-- A byte that comes before the end of the frame in progress is accumulated (rules R121, R124). -/
theorem step_rx_receiving {s : State} {b : Byte} {t : Nat} {rest : List Event} (hbus : s.bus = .receiving)
    (htime : s.tNow ≤ t) (hsilence : t - s.tLast < s.tIF) (hinbox : s.inbox = .rx b t :: rest) :
    step s = .next (accumulate b t (setTime t (popEvent rest s))) := by
  have hservice : inService s = true := (inService_eq_true_iff s).2 (by simp [hbus])
  have hadvance : advance t (setTime t (popEvent rest s)) = .next (setTime t (popEvent rest s)) :=
    advance_early (fun _ => hsilence) (by simp [hbus])
  rw [step_rx hservice htime hinbox hadvance]
  simp only [receiveByte, setTime_bus, popEvent_bus, hbus]

/-- Settles O27, by the three things accumulation can do. -/
theorem byteJoinsOverflowsOrBreaksFrame : Obligations.ByteJoinsOverflowsOrBreaksFrame := by
  intro s b t rest hbus htime hsilence hinbox
  rw [step_rx_receiving hbus htime hsilence hinbox]
  refine ⟨fun hgap => ?_, fun hgap hfull => ?_, fun hgap hroom => ?_⟩
  · rw [accumulate, if_pos (by exact hgap)]
    rfl
  · rw [accumulate, if_neg (by exact Nat.not_lt.2 hgap), if_pos (by exact hfull)]
    rfl
  · rw [accumulate, if_neg (by exact Nat.not_lt.2 hgap), if_neg (by exact hroom)]
    rfl

/-- Settles O28, by the deadline of the resynchronization wait. -/
theorem idleByteStartsFrameOrRestartsWait : Obligations.IdleByteStartsFrameOrRestartsWait := by
  intro s b t rest htime hinbox
  refine ⟨?_, fun hbus hsilence => ?_⟩
  · rintro (hbus | ⟨hbus, hover⟩)
    · have hservice : inService s = true := (inService_eq_true_iff s).2 (by simp [hbus])
      rw [step_rx hservice htime hinbox (advance_idleReady (s := setTime t (popEvent rest s)) hbus t)]
      simp only [receiveByte, setTime_bus, popEvent_bus, hbus]
      rfl
    · have hservice : inService s = true := (inService_eq_true_iff s).2 (by simp [hbus])
      exact step_rx hservice htime hinbox (advance_resync_over hbus hover)
  · have hservice : inService s = true := (inService_eq_true_iff s).2 (by simp [hbus])
    have hadvance : advance t (setTime t (popEvent rest s)) = .next (setTime t (popEvent rest s)) :=
      advance_early (fun _ => hsilence) (by simp [hbus])
    rw [step_rx hservice htime hinbox hadvance]
    simp only [receiveByte, setTime_bus, popEvent_bus, hbus]
    rfl

/-! ### The transmit window -/

/-- Settles O29: in the window `ADVANCE` does nothing before the end of the guard time, and the byte is discarded. -/
theorem transmitWindowDiscardsBytes : Obligations.TransmitWindowDiscardsBytes := by
  intro s b t rest htime hinbox hbus
  have hwindow : inWindow s = true := (inWindow_eq_true_iff s).2 (hbus.imp_right And.left)
  have hservice : inService s = true :=
    (inService_eq_true_iff s).2 (by rcases hbus with h | ⟨h, -⟩ <;> simp [h])
  have hadvance : advance t (setTime t (popEvent rest s)) = .next (setTime t (popEvent rest s)) := by
    rcases hbus with hsending | ⟨hguarding, hguard⟩
    · exact advance_transmitting (s := setTime t (popEvent rest s)) hsending t
    · exact advance_early (by simp [hguarding]) (fun _ => hguard)
  rw [step_rx hservice htime hinbox hadvance, receiveByte_inWindow (s := setTime t (popEvent rest s)) hwindow]
  rfl

/-- A `TXDONE` in time ends the transmission (rule R250). -/
theorem step_txdone {s : State} {t : Nat} {rest : List Event} (hbus : s.bus = .transmitting) (htime : s.tNow ≤ t)
    (hinbox : s.inbox = .txdone t :: rest) :
    step s = .next (endTransmission t (setTime t (popEvent rest s))) := by
  have hadvance : advance t (setTime t (popEvent rest s)) = .next (setTime t (popEvent rest s)) :=
    advance_transmitting (s := setTime t (popEvent rest s)) hbus t
  have haccept : (popEvent rest s).bus = .transmitting ∧ (popEvent rest s).tNow ≤ t := ⟨hbus, htime⟩
  exact step_accept hinbox (by rw [handle, txdoneEvent, if_pos haccept, hadvance, andThen_next])

/-- The release writes the receive level of the configuration (rules R246, R253). -/
theorem release_eq (s : State) : release s =
    { s with de := .receive, out := s.out ++ [.de s.cfg.deInverted], bus := .idleReady } := by
  simp only [release, driveLine, emit, level_receive]

/-- Settles O33, by the three ends of a transmission. -/
theorem txdoneEndsTransmission : Obligations.TxdoneEndsTransmission := by
  intro s t rest hbus htime hinbox
  rw [step_txdone hbus htime hinbox]
  rcases endTransmission_cases t (setTime t (popEvent rest s)) with
    ⟨hpin, hend⟩ | ⟨hpin, hguard, hend⟩ | ⟨hpin, hguard, hend⟩
  · have hnone : s.cfg.dePresent = false := hpin
    rw [hend, hnone]
    exact ⟨nofun, nofun, fun _ => rfl⟩
  · have hnow : s.par.tGuard = 0 := hguard
    have hsome : s.cfg.dePresent = true := hpin
    rw [hend, release_eq, hnow, hsome]
    exact ⟨fun _ h => absurd h (Nat.lt_irrefl 0), fun _ _ => rfl, nofun⟩
  · have hlater : 0 < s.par.tGuard := hguard
    have hsome : s.cfg.dePresent = true := hpin
    rw [hend, hsome]
    exact ⟨fun _ _ => rfl, fun _ h => absurd h (Nat.ne_of_gt hlater), nofun⟩

/-- Settles O34, by the release and the byte that comes after it. -/
theorem guardEndReleasesPin : Obligations.GuardEndReleasesPin := by
  intro s t rest hbus htime hover
  have hservice : inService s = true := (inService_eq_true_iff s).2 (by simp [hbus])
  have hadvance := advance_guard_over (s := setTime t (popEvent rest s)) hbus hover
  refine ⟨fun hinbox => ?_, fun b hinbox => ?_⟩
  · rw [step_tick hservice htime hinbox hadvance, release_eq]
    rfl
  · rw [step_rx hservice htime hinbox hadvance, receiveByte_release, release_eq]
    rfl

/-! ### Refused events (rule R270) -/

/-- Out of service every event but `RESET` is refused (rules R270, R331). -/
theorem handle_outOfService {e : Event} {s : State} (hservice : inService s = false) (hreset : isReset e = false) :
    handle e s = .next none := by
  have hlate : ∀ t, timely t s = false := fun t => by simp [timely, hservice]
  have hbus : s.bus ≠ .transmitting := fun h => by simp [inService, h] at hservice
  cases e with
  | reset c t0 => cases hreset
  | rx b t => simp [handle, rxEvent, hlate]
  | tick t => simp [handle, tickEvent, hlate]
  | txdone t => simp [handle, txdoneEvent, hbus]
  | reconfig c t => simp [handle, reconfigEvent, hlate]
  | hostRead table a => simp [handle, hostReadEvent, hservice]
  | hostWrite table a v => simp [handle, hostWriteEvent, hservice]

/-- An event that goes back in time is refused (rule R270). -/
theorem handle_late {e : Event} {s : State} {t : Nat} (htime : eventTime e = some t) (hlate : t < s.tNow) :
    handle e s = .next none := by
  have hnot : timely t s = false := by simp [timely, Nat.not_le.2 hlate]
  cases e with
  | rx b t' => cases htime; simp [handle, rxEvent, hnot]
  | tick t' => cases htime; simp [handle, tickEvent, hnot]
  | txdone t' => cases htime; simp [handle, txdoneEvent, Nat.not_le.2 hlate]
  | reconfig c t' => cases htime; simp [handle, reconfigEvent, hnot]
  | reset | hostRead | hostWrite => cases htime

/-- Settles O37, since every event but `RESET` asks for the block to be in service. -/
theorem outOfServiceOnlyResetIsAccepted : Obligations.OutOfServiceOnlyResetIsAccepted := by
  intro s e rest hbus hinbox hreset
  have hservice : inService s = false := by rcases hbus with h | h <;> simp [inService, h]
  exact step_refuse hinbox (handle_outOfService (s := popEvent rest s) hservice hreset)

/-- Settles O38, by the acceptance conditions on time and on `TXDONE`. -/
theorem untimelyEventIsRefused : Obligations.UntimelyEventIsRefused := by
  intro s e rest hinbox hwhy
  refine step_refuse hinbox ?_
  rcases hwhy with ⟨t, htime, hlate⟩ | ⟨hbus, t, rfl⟩
  · exact handle_late htime hlate
  · simp [handle, txdoneEvent, hbus]

/-! ### Host ports -/

/-- The environment's two fields hold no element. -/
theorem tableRead_popEvent (rest : List Event) (s : State) (table : Table) (a : Nat) :
    tableRead (popEvent rest s) table a = tableRead s table a := by
  cases table <;> rfl

/-- Settles O39, by the host port's acceptance. -/
theorem hostReadReturnsElement : Obligations.HostReadReturnsElement := by
  intro s table a rest hservice hrange hinbox
  have haccept : (inService (popEvent rest s) && decide (a < extent (popEvent rest s).par table)) = true := by
    rw [Bool.and_eq_true, decide_eq_true_eq]
    exact ⟨hservice, hrange⟩
  exact step_accept hinbox (by rw [handle, hostReadEvent, if_pos haccept, tableRead_popEvent]; rfl)

/-- A cell as a number, after a number that fits it was written to a cell. -/
theorem toNat_cellRead_cellWrite {w hi v : Nat} {m : Cells w} (hm : cellsWf 0 hi m = true) (hv : v < 2 ^ w)
    (a b : Nat) : (cellRead (cellWrite m a (BitVec.ofNat w v)) b).toNat =
      if b = a then v else (cellRead m b).toNat := by
  rw [cellRead_cellWrite _ _ b hm, apply_ite BitVec.toNat, BitVec.toNat_ofNat, Nat.mod_eq_of_lt hv]

/-- A host write leaves the other tables (rule R273). -/
theorem tableRead_tableWrite_of_ne {table table' : Table} (h : table' ≠ table) (s : State) (a v b : Nat) :
    tableRead (tableWrite s table a v) table' b = tableRead s table' b := by
  cases table with
  | co => cases table' with
    | co => exact absurd rfl h
    | di | hr | ir => rfl
  | di => cases table' with
    | di => exact absurd rfl h
    | co | hr | ir => rfl
  | hr => cases table' with
    | hr => exact absurd rfl h
    | co | di | ir => rfl
  | ir => cases table' with
    | ir => exact absurd rfl h
    | co | di | hr => rfl

/-- A host write writes its one element of its own table (rules R271, R273). -/
theorem tableRead_tableWrite_same {s : State} {table : Table} {v : Nat} (hwf : Memory.wf s = true)
    (hwidth : fitsWidth table v = true) (a b : Nat) :
    tableRead (tableWrite s table a v) table b = if b = a then v else tableRead s table b := by
  obtain ⟨hco, hdi, hhr, hir⟩ := (memory_wf_iff s).1 hwf
  cases table with
  | co => exact toNat_cellRead_cellWrite hco (Nat.lt_succ_of_le (of_decide_eq_true hwidth)) a b
  | di => exact toNat_cellRead_cellWrite hdi (Nat.lt_succ_of_le (of_decide_eq_true hwidth)) a b
  | hr => exact toNat_cellRead_cellWrite hhr (Nat.lt_succ_of_le (of_decide_eq_true hwidth)) a b
  | ir => exact toNat_cellRead_cellWrite hir (Nat.lt_succ_of_le (of_decide_eq_true hwidth)) a b

/-- Settles O40, by the write of the one cell. -/
theorem hostWriteWritesOneElement : Obligations.HostWriteWritesOneElement := by
  intro s table a v rest hwf hservice hrange hwidth hinbox
  have haccept : (inService (popEvent rest s) && decide (a < extent (popEvent rest s).par table) &&
      fitsWidth table v) = true := by
    rw [Bool.and_eq_true, Bool.and_eq_true, decide_eq_true_eq]
    exact ⟨⟨hservice, hrange⟩, hwidth⟩
  refine ⟨_, step_accept hinbox (by rw [handle, hostWriteEvent, if_pos haccept]), ?_, fun table' b => ?_⟩
  · cases table <;> rfl
  · by_cases htable : table' = table
    · rw [htable, tableRead_tableWrite_same (s := popEvent rest s) hwf hwidth, tableRead_popEvent]
      simp only [true_and]
    · rw [tableRead_tableWrite_of_ne htable, tableRead_popEvent, if_neg fun h => htable h.1]

/-- Settles O41, by the range and width checks of the host ports. -/
theorem hostAccessOutOfRangeIsRefused : Obligations.HostAccessOutOfRangeIsRefused := by
  intro s table a v rest
  refine ⟨fun hrange hinbox => step_refuse hinbox ?_, fun hwhy hinbox => step_refuse hinbox ?_⟩
  · simp [handle, hostReadEvent, Nat.not_lt.2 hrange]
  · rcases hwhy with hrange | hwidth
    · simp [handle, hostWriteEvent, Nat.not_lt.2 hrange]
    · simp [handle, hostWriteEvent, hwidth]

/-! ### `RECONFIG` -/

/-- Settles O42: no deadline has expired, or only the wait's, which `RECONFIG` restarts. -/
theorem reconfigRestartsListening : Obligations.ReconfigRestartsListening := by
  intro s c t rest htime hvalid hinbox hbus
  have hservice : inService s = true :=
    (inService_eq_true_iff s).2 (by rcases hbus with h | h | ⟨h, -⟩ <;> simp [h])
  have hlistening : ∃ bus, bus ≠ .transmitting ∧ bus ≠ .guardWait ∧
      advance t (setTime t (popEvent rest s)) = .next { setTime t (popEvent rest s) with bus := bus } := by
    rcases hbus with hbus | hbus | ⟨hbus, hsilence⟩
    · exact ⟨s.bus, by simp [hbus], by simp [hbus], advance_idleReady (s := setTime t (popEvent rest s)) hbus t⟩
    · by_cases hover : s.tIF ≤ t - s.tLast
      · exact ⟨.idleReady, nofun, nofun, advance_resync_over (s := setTime t (popEvent rest s)) hbus hover⟩
      · exact ⟨s.bus, by simp [hbus], by simp [hbus],
          advance_early (s := setTime t (popEvent rest s)) (fun _ => Nat.lt_of_not_le hover) (by simp [hbus])⟩
    · exact ⟨s.bus, by simp [hbus], by simp [hbus],
        advance_early (s := setTime t (popEvent rest s)) (fun _ => hsilence) (by simp [hbus])⟩
  obtain ⟨bus, hsending, hguarding, hadvance⟩ := hlistening
  rw [step_reconfig hservice htime hvalid hinbox hadvance, if_neg (by simp [inWindow, hsending, hguarding]),
    reconfigure_eq]
  rfl

/-- Settles O43, by the release that `ADVANCE` makes first. -/
theorem reconfigAfterGuardReleasesFirst : Obligations.ReconfigAfterGuardReleasesFirst := by
  intro s c t rest htime hvalid hinbox hbus hover
  have hservice : inService s = true := (inService_eq_true_iff s).2 (by simp [hbus])
  have hadvance := advance_guard_over (s := setTime t (popEvent rest s)) hbus hover
  rw [step_reconfig hservice htime hvalid hinbox hadvance, if_neg (by simp [inWindow]), reconfigure_eq, release_eq]
  simp only [List.append_assoc, List.singleton_append]
  rfl

/-- A `RECONFIG` whose `ADVANCE` leaves the transmit window is refused, as is an invalid one (rules R277, R278). -/
theorem step_reconfig_refused {s u : State} {c : Cfg} {t : Nat} {rest : List Event}
    (hinbox : s.inbox = .reconfig c t :: rest) (h : advance t (setTime t (popEvent rest s)) = .next u)
    (hwhy : validCfg c = false ∨ inWindow u = true) : step s = .next (refuseEvent rest s) := by
  refine step_refuse hinbox ?_
  rw [handle, reconfigEvent, h, andThen_next]
  rcases hwhy with hinvalid | hwindow
  · rw [hinvalid, Bool.and_false, if_neg (by decide)]
  · rw [if_pos hwindow, ite_self]

/-- An addressed request is answered, so it leaves the transmit window (rules R231, R247). -/
theorem exec_addressed_inWindow {i : Instr} {s : State} (hstation : i.target = s.cfg.station) (hzero : i.target ≠ 0#8) :
    ∃ u, exec i s = .next u ∧ inWindow u = true := by
  obtain ⟨failure, effect, data, hexec⟩ := exec_eq_runFunction i s
  obtain ⟨f, hrun⟩ := runFunction_station hstation hzero (opcode i) failure effect data
  exact ⟨_, hexec.trans hrun, by simp [inWindow]⟩

/-- Settles O44, by where `ADVANCE` leads in each case. -/
theorem reconfigRefusedWhole : Obligations.ReconfigRefusedWhole := by
  intro s c t rest hinbox hwhy
  rcases hwhy with hinvalid | hbus | ⟨hbus, hguard⟩ | ⟨hbus, hover, i, hdec, hstation, hzero⟩
  · obtain ⟨u, hadvance⟩ := advance_next t (setTime t (popEvent rest s))
    exact step_reconfig_refused hinbox hadvance (.inl hinvalid)
  · have hadvance := advance_transmitting (s := setTime t (popEvent rest s)) hbus t
    exact step_reconfig_refused hinbox hadvance (.inr ((inWindow_eq_true_iff _).2 (.inl hbus)))
  · have hadvance : advance t (setTime t (popEvent rest s)) = .next (setTime t (popEvent rest s)) :=
      advance_early (by simp [hbus]) (fun _ => hguard)
    exact step_reconfig_refused hinbox hadvance (.inr ((inWindow_eq_true_iff _).2 (.inr hbus)))
  · obtain ⟨u, hexec, hwindow⟩ := exec_addressed_inWindow (s := completing t rest s) hstation hzero
    exact step_reconfig_refused hinbox ((advance_completes hbus hover hdec rest).trans hexec) (.inr hwindow)

/-! ### `RESET` (rule R330) -/

/-- A `RESET` is never refused (rules R270, R330). -/
theorem step_reset {s : State} {c : Cfg} {t0 : Nat} {rest : List Event} (hinbox : s.inbox = .reset c t0 :: rest) :
    step s = .next (resetBlock c t0 (popEvent rest s)) :=
  step_accept hinbox rfl

/-- Settles O45, by the accepting end of `RESET`. -/
theorem validResetLeavesResetValues : Obligations.ValidResetLeavesResetValues := by
  intro s c t0 rest hvalid hinbox
  rw [step_reset hinbox, resetBlock, if_pos hvalid]
  simp [acceptConfig, clearBlock, popEvent, level_receive]

/-- Settles O46, by the rejecting end of `RESET`. -/
theorem invalidResetEntersConfigFault : Obligations.InvalidResetEntersConfigFault := by
  intro s c t0 rest hinvalid hinbox
  rw [step_reset hinbox, resetBlock, if_neg (by simp [hinvalid])]
  exact ⟨_, _, _, _, rfl⟩

/-- Settles O47, by what a valid `RESET` leaves. -/
theorem resetStateIsAnAcceptedReset : Obligations.ResetStateIsAnAcceptedReset := by
  intro s hpar hinbox
  rw [validResetLeavesResetValues s Config.resetCfg 0 [] rfl hinbox, hpar]
  rfl

end Sys2Proof.Machine
end

section
/-! What `ADVANCE` and a received byte can make of a state (41_frame_parser.md sections 1 and 2), said once with the
whole state, and the fields no event of the bus touches. -/

namespace Sys2Proof.Machine

/-! ### `ADVANCE` -/

/-- What `ADVANCE(t)` may make of a state (rules R120, R122, R123, R140, R253). -/
inductive AdvanceOutcome (t : Nat) (s : State) : State → Prop where
  | stays (hsame : advance t s = .next s) : AdvanceOutcome t s s
  | ready (hbus : s.bus = .idleResync) : AdvanceOutcome t s { s with bus := .idleReady }
  | completes {v : State} (hbus : s.bus = .receiving) (hrun : ExecOutcome (takeFrame s) v) : AdvanceOutcome t s v
  | releases (hbus : s.bus = .guardWait) : AdvanceOutcome t s (release s)

/-- A completed frame is dropped or runs its request (rule R140). -/
theorem complete_outcome {s v : State} (h : complete s = .next v) : ExecOutcome (takeFrame s) v := by
  rcases complete_cases s with ⟨r, -, hdrop⟩ | ⟨i, -, hrun⟩
  · obtain rfl := Host.Outcome.next.inj (hdrop.symm.trans h)
    exact .silent s.co s.hr id
  · exact exec_outcome (hrun.symm.trans h)

/-- Everything `ADVANCE` can do, down to the request it runs. -/
theorem advance_outcome {t : Nat} {s v : State} (h : advance t s = .next v) : AdvanceOutcome t s v := by
  rcases advance_cases t s with ⟨hbus, -, hready⟩ | ⟨hbus, -, hcomplete⟩ | ⟨hbus, -, hrelease⟩ | ⟨hsame, -⟩
  · obtain rfl := Host.Outcome.next.inj (hready.symm.trans h)
    exact .ready hbus
  · exact .completes hbus (complete_outcome (hcomplete.symm.trans h))
  · obtain rfl := Host.Outcome.next.inj (hrelease.symm.trans h)
    exact .releases hbus
  · obtain rfl := Host.Outcome.next.inj (hsame.symm.trans h)
    exact .stays hsame

/-! ### A received byte -/

/-- What the byte `b` received at `t` may make of a state (rules R124 to R127, R129). -/
inductive ByteOutcome (b : Byte) (t : Nat) (s : State) : State → Prop where
  | starts (hbus : s.bus = .idleReady) : ByteOutcome b t s (startFrame b t s)
  | breaks (hbus : s.bus = .receiving) : ByteOutcome b t s (resync t s)
  | joins (hbus : s.bus = .receiving) (hroom : s.buf.length ≠ s.par.maxAdu) :
      ByteOutcome b t s { s with buf := s.buf ++ [b], tLast := t }
  | restarts (hbus : s.bus = .idleResync) : ByteOutcome b t s { s with tLast := t }
  | discards (hready : s.bus ≠ .idleReady) (hresync : s.bus ≠ .idleResync) (hreceiving : s.bus ≠ .receiving) :
      ByteOutcome b t s s

/-- Everything a received byte can do. -/
theorem receiveByte_outcome (b : Byte) (t : Nat) (s : State) : ByteOutcome b t s (receiveByte b t s) := by
  cases hbus : s.bus with
  | idleReady =>
    have h : receiveByte b t s = startFrame b t s := by simp only [receiveByte, hbus]
    exact h ▸ .starts hbus
  | receiving =>
    have h : receiveByte b t s = accumulate b t s := by simp only [receiveByte, hbus]
    rcases accumulate_cases b t s with ⟨-, hacc⟩ | ⟨-, -, hacc⟩ | ⟨-, hroom, hacc⟩
    · exact h.trans hacc ▸ .breaks hbus
    · exact h.trans hacc ▸ .breaks hbus
    · exact h.trans hacc ▸ .joins hbus hroom
  | idleResync =>
    have h : receiveByte b t s = { s with tLast := t } := by simp only [receiveByte, hbus]
    exact h ▸ .restarts hbus
  | transmitting | guardWait | unconfigured | configFault =>
    have h : receiveByte b t s = s := by simp only [receiveByte, hbus]
    exact h.symm ▸ .discards (by simp [hbus]) (by simp [hbus]) (by simp [hbus])

/-! ### The fields no event of the bus touches -/

/-- The parameters, the configuration and its timing, the time and the environment's two fields: the events of the bus
only read them, once the event's own time is set (rule R314). -/
def busFrame (s : State) : Params × Cfg × Nat × Nat × Nat × List Event × Option Reply :=
  (s.par, s.cfg, s.tIC, s.tIF, s.tNow, s.inbox, s.reply)

/-- Equal frames are equal fields. -/
theorem busFrame_eq_iff {s t : State} : busFrame t = busFrame s ↔ t.par = s.par ∧ t.cfg = s.cfg ∧ t.tIC = s.tIC ∧
    t.tIF = s.tIF ∧ t.tNow = s.tNow ∧ t.inbox = s.inbox ∧ t.reply = s.reply := by
  simp only [busFrame, Prod.mk.injEq]

/-- A request touches none of them. -/
theorem ExecOutcome.busFrame_eq {s v : State} (h : ExecOutcome s v) : busFrame v = busFrame s := by
  cases h with
  | silent | answers => rfl

/-- The deadlines touch none of them. -/
theorem AdvanceOutcome.busFrame_eq {t : Nat} {s v : State} (h : AdvanceOutcome t s v) : busFrame v = busFrame s := by
  cases h with
  | stays | ready | releases => rfl
  | completes _ hrun => exact hrun.busFrame_eq

/-- A received byte touches none of them. -/
theorem ByteOutcome.busFrame_eq {b : Byte} {t : Nat} {s v : State} (h : ByteOutcome b t s v) :
    busFrame v = busFrame s := by
  cases h with
  | starts | breaks | joins | restarts | discards => rfl

/-- The end of a transmission touches none of them. -/
theorem busFrame_endTransmission (t : Nat) (s : State) : busFrame (endTransmission t s) = busFrame s := by
  rcases endTransmission_cases t s with ⟨-, h⟩ | ⟨-, -, h⟩ | ⟨-, -, h⟩
  all_goals rw [h]; rfl

/-- What an accepted event but `RESET` and `RECONFIG` leaves of the configuration (rules R21, R314). -/
theorem handle_keeps_config {e : Event} {s u : State} (h : handle e s = .next (some u)) (hreset : isReset e = false)
    (hreconfig : ∀ c t, e ≠ .reconfig c t) :
    u.par = s.par ∧ u.cfg = s.cfg ∧ u.tIC = s.tIC ∧ u.tIF = s.tIF := by
  have hcases := handle_cases h
  have of_frame {t : Nat} (hframe : busFrame u = busFrame (setTime t s)) :
      u.par = s.par ∧ u.cfg = s.cfg ∧ u.tIC = s.tIC ∧ u.tIF = s.tIF := by
    obtain ⟨hpar, hcfg, htIC, htIF, -⟩ := busFrame_eq_iff.1 hframe
    exact ⟨hpar, hcfg, htIC, htIF⟩
  cases e with
  | reset c t0 => cases hreset
  | rx b t =>
    obtain ⟨-, -, v, hv, rfl⟩ := hcases
    exact of_frame ((receiveByte_outcome b t v).busFrame_eq.trans (advance_outcome hv).busFrame_eq)
  | tick t =>
    obtain ⟨-, -, hu⟩ := hcases
    exact of_frame (advance_outcome hu).busFrame_eq
  | txdone t =>
    obtain ⟨-, -, rfl⟩ := hcases
    exact of_frame (busFrame_endTransmission t _)
  | reconfig c t => exact absurd rfl (hreconfig c t)
  | hostRead table a =>
    obtain ⟨-, -, rfl⟩ := hcases
    exact ⟨rfl, rfl, rfl, rfl⟩
  | hostWrite table a v =>
    obtain ⟨-, -, -, rfl⟩ := hcases
    cases table <;> exact ⟨rfl, rfl, rfl, rfl⟩

/-- `RESET` does not write the parameters (rules R7, R330). -/
theorem resetBlock_par (c : Cfg) (t0 : Nat) (s : State) : (resetBlock c t0 s).par = s.par := by
  rcases resetBlock_cases c t0 s with ⟨-, hend⟩ | ⟨-, hend⟩ <;> rw [hend] <;> rfl

/-- Nor does an accepted `RECONFIG` (rules R7, R275). -/
theorem handle_reconfig_par {c : Cfg} {t : Nat} {s u : State} (h : handle (.reconfig c t) s = .next (some u)) :
    u.par = s.par := by
  obtain ⟨-, -, -, v, hv, -, rfl⟩ := handle_cases h
  obtain ⟨hpar, -⟩ := busFrame_eq_iff.1 (advance_outcome hv).busFrame_eq
  rw [reconfigure_eq]
  exact hpar

/-- Settles O50: a refused event writes none of these fields, and an accepted one only by `RESET` or `RECONFIG`. -/
theorem onlyHostReconfigures : Obligations.OnlyHostReconfigures := by
  intro s t e rest hinbox hstep
  rcases step_event_cases hinbox hstep with ⟨c, t0, rfl, rfl⟩ | ⟨hother, haccept | rfl⟩
  · exact ⟨resetBlock_par c t0 _, nofun⟩
  · by_cases hreconfig : ∃ c t', e = .reconfig c t'
    · obtain ⟨c, t', rfl⟩ := hreconfig
      exact ⟨handle_reconfig_par (s := popEvent rest s) haccept, fun _ hnot => absurd rfl (hnot c t')⟩
    · have hnot : ∀ c t', e ≠ .reconfig c t' := fun c t' he => hreconfig ⟨c, t', he⟩
      obtain ⟨hpar, hconfig⟩ := handle_keeps_config (s := popEvent rest s) haccept hother hnot
      exact ⟨hpar, fun _ _ => hconfig⟩
  · exact ⟨rfl, fun _ _ => ⟨rfl, rfl, rfl⟩⟩

end Sys2Proof.Machine
end

section
/-! The bus state and the output trace over a step (41_frame_parser.md section 5, 46_tx_enable.md). -/

namespace Sys2Proof.Machine

/-! ### The transition table (rule R146) -/

/-- A refused event leaves the bus state, so the table allows every state to stay. -/
theorem self_mem_allowedNext (b : Bus) {e : Event} (h : isReset e = false) : b ∈ allowedNext b e := by
  cases e with
  | reset => cases h
  | rx | tick | txdone | reconfig | hostRead | hostWrite => cases b <;> simp [allowedNext]

/-- The bus states `ADVANCE` may leave (rules R122, R123, R140, R253). -/
def busAfterAdvance : Bus → List Bus
  | .idleResync => [.idleResync, .idleReady]
  | .receiving => [.receiving, .idleReady, .transmitting]
  | .guardWait => [.guardWait, .idleReady]
  | b => [b]

/-- The bus states a received byte may leave (rules R124 to R127, R129). -/
def busAfterByte : Bus → List Bus
  | .idleReady => [.receiving]
  | .receiving => [.receiving, .idleResync]
  | b => [b]

/-- `ADVANCE` may leave the bus state as it is. -/
theorem self_mem_busAfterAdvance (b : Bus) : b ∈ busAfterAdvance b := by
  cases b <;> simp [busAfterAdvance]

/-- The bus state after `ADVANCE`. -/
theorem AdvanceOutcome.bus_mem {t : Nat} {s v : State} (h : AdvanceOutcome t s v) :
    v.bus ∈ busAfterAdvance s.bus := by
  cases h with
  | stays => exact self_mem_busAfterAdvance s.bus
  | ready hbus => simp [hbus, busAfterAdvance]
  | completes hbus hrun => cases hrun with
    | silent | answers => simp [hbus, busAfterAdvance]
  | releases hbus => simp [hbus, busAfterAdvance]

/-- The bus state after a received byte. -/
theorem ByteOutcome.bus_mem {b : Byte} {t : Nat} {s v : State} (h : ByteOutcome b t s v) :
    v.bus ∈ busAfterByte s.bus := by
  cases h with
  | starts hbus | breaks hbus | joins hbus | restarts hbus => simp [hbus, busAfterByte]
  | discards hready hresync hreceiving =>
    cases hbus : s.bus with
    | idleReady => exact absurd hbus hready
    | receiving => exact absurd hbus hreceiving
    | idleResync | transmitting | guardWait | unconfigured | configFault => simp [busAfterByte]

/-- A byte after `ADVANCE` stays within the table's rows for `RX`. -/
theorem mem_allowedNext_rx {b v u : Bus} (hv : v ∈ busAfterAdvance b) (hu : u ∈ busAfterByte v) (x : Byte) (t : Nat) :
    u ∈ allowedNext b (.rx x t) := by
  cases b with
  | idleReady | transmitting | unconfigured | configFault =>
    obtain rfl := List.mem_singleton.1 hv
    obtain rfl := List.mem_singleton.1 hu
    simp [allowedNext]
  | idleResync | guardWait =>
    rcases List.mem_pair.1 hv with rfl | rfl
    all_goals
      obtain rfl := List.mem_singleton.1 hu
      simp [allowedNext]
  | receiving =>
    have hthree : v = .receiving ∨ v = .idleReady ∨ v = .transmitting := by simpa [busAfterAdvance] using hv
    rcases hthree with rfl | rfl | rfl
    · rcases List.mem_pair.1 hu with rfl | rfl <;> simp [allowedNext]
    all_goals
      obtain rfl := List.mem_singleton.1 hu
      simp [allowedNext]

/-- `ADVANCE` stays within the table's rows for `TICK`. -/
theorem mem_allowedNext_tick {b v : Bus} (hv : v ∈ busAfterAdvance b) (t : Nat) : v ∈ allowedNext b (.tick t) := by
  cases b <;> exact hv

/-- `RECONFIG` restarts the wait only from the rows of the table that say so (rules R275, R277). -/
theorem mem_allowedNext_reconfig {s v : State} (hservice : inService s = true) (hv : v.bus ∈ busAfterAdvance s.bus)
    (hwindow : inWindow v = false) (c : Cfg) (t : Nat) : .idleResync ∈ allowedNext s.bus (.reconfig c t) := by
  cases hbus : s.bus with
  | unconfigured | configFault => simp [inService, hbus] at hservice
  | idleReady | idleResync | receiving | guardWait => simp [allowedNext]
  | transmitting =>
    have hvbus : v.bus = .transmitting := by simpa [hbus, busAfterAdvance] using hv
    simp [inWindow, hvbus] at hwindow

/-- `RESET` leaves the wait or the configuration fault (rule R330). -/
theorem resetBlock_bus_mem (c : Cfg) (t0 : Nat) (s : State) (b : Bus) :
    (resetBlock c t0 s).bus ∈ allowedNext b (.reset c t0) := by
  rcases resetBlock_cases c t0 s with ⟨-, hend⟩ | ⟨-, hend⟩ <;> cases b <;> simp [hend, allowedNext]

/-- The rows an accepted event but `RESET` takes (rules R121, R128, R250, R272, R273, R275). -/
theorem handle_bus_mem {e : Event} {s u : State} (hreset : isReset e = false) (h : handle e s = .next (some u)) :
    u.bus ∈ allowedNext s.bus e := by
  have hcases := handle_cases h
  cases e with
  | reset c t0 => cases hreset
  | rx b t =>
    obtain ⟨-, -, v, hv, rfl⟩ := hcases
    exact mem_allowedNext_rx (advance_outcome hv).bus_mem (receiveByte_outcome b t v).bus_mem b t
  | tick t =>
    obtain ⟨-, -, hu⟩ := hcases
    exact mem_allowedNext_tick (advance_outcome hu).bus_mem t
  | txdone t =>
    obtain ⟨hbus, -, rfl⟩ := hcases
    rcases endTransmission_cases t (setTime t s) with ⟨-, hend⟩ | ⟨-, -, hend⟩ | ⟨-, -, hend⟩
    all_goals simp [hend, hbus, allowedNext]
  | reconfig c t =>
    obtain ⟨hservice, -, -, v, hv, hwindow, rfl⟩ := hcases
    rw [reconfigure_eq]
    exact mem_allowedNext_reconfig hservice (advance_outcome hv).bus_mem hwindow c t
  | hostRead table a =>
    obtain ⟨-, -, rfl⟩ := hcases
    exact self_mem_allowedNext s.bus rfl
  | hostWrite table a v =>
    obtain ⟨-, -, -, rfl⟩ := hcases
    have hsame : (tableWrite s table a v).bus = s.bus := by cases table <;> rfl
    rw [hsame]
    exact self_mem_allowedNext s.bus rfl

/-- Settles O31: an accepted event takes the table's rows, and a refused one none. -/
theorem busFollowsTransitionTable : Obligations.BusFollowsTransitionTable := by
  intro s t e rest hinbox hstep
  rcases step_event_cases hinbox hstep with ⟨c, t0, rfl, rfl⟩ | ⟨hother, haccept | rfl⟩
  · exact resetBlock_bus_mem c t0 _ s.bus
  · exact handle_bus_mem (s := popEvent rest s) hother haccept
  · exact self_mem_allowedNext s.bus hother

/-! ### The output trace (rules R31, R247, R253) -/

/-- What `ADVANCE` adds to the trace: nothing, one whole response, or the receive level. -/
theorem AdvanceOutcome.out_cases {t : Nat} {s v : State} (h : AdvanceOutcome t s v) :
    v.out = s.out ∨
    (s.bus = .receiving ∧ v.bus = .transmitting ∧ ∃ f, StationFrame s.cfg.station f ∧
      v.out = s.out ++ responseOutput s f) ∨
    (s.bus = .guardWait ∧ v.bus = .idleReady ∧ v.out = s.out ++ [.de (level s.cfg .receive)]) := by
  cases h with
  | stays | ready => exact .inl rfl
  | releases hbus => exact .inr (.inr ⟨hbus, rfl, rfl⟩)
  | completes hbus hrun => cases hrun with
    | silent => exact .inl rfl
    | answers co hr f _ hframe => exact .inr (.inl ⟨hbus, rfl, f, hframe, rfl⟩)

/-- A received byte adds nothing to the trace. -/
theorem receiveByte_out (b : Byte) (t : Nat) (s : State) : (receiveByte b t s).out = s.out := by
  have h := receiveByte_outcome b t s
  generalize receiveByte b t s = v at h
  cases h with
  | starts | breaks | joins | restarts | discards => rfl

/-- What the claim on the trace says of an event `e` that takes `s` to `t`. -/
def TraceGrowth (e : Event) (s t : State) : Prop :=
  t.out = s.out ∨
  (inWindow s = true ∧ t.out = s.out ++ [.de (level s.cfg .receive)]) ∨
  (∃ c t', e = .reconfig c t' ∧ c.dePresent = true ∧
    (t.out = s.out ++ [.de (level c .receive)] ∨
     (s.bus = .guardWait ∧ t.out = s.out ++ [.de (level s.cfg .receive), .de (level c .receive)]))) ∨
  ∃ f : List Byte, t.out = s.out ++ responseOutput s f ∧ s.bus = .receiving ∧ t.bus = .transmitting ∧
    StationFrame s.cfg.station f

/-- An accepted event but `RESET` grows the trace so (rules R231, R247, R253, R275). -/
theorem handle_traceGrowth {e : Event} {s u : State} (hreset : isReset e = false)
    (h : handle e s = .next (some u)) : TraceGrowth e s u := by
  have hcases := handle_cases h
  cases e with
  | reset c t0 => cases hreset
  | rx b t =>
    obtain ⟨-, -, v, hv, rfl⟩ := hcases
    have hout := receiveByte_out b t v
    rcases (advance_outcome hv).out_cases with hsame | ⟨hbus, hsending, f, hframe, hadds⟩ | ⟨hbus, -, hadds⟩
    · exact .inl (hout.trans hsame)
    · have hdiscard := receiveByte_inWindow ((inWindow_eq_true_iff v).2 (.inl hsending)) b t
      exact .inr (.inr (.inr ⟨f, hout.trans hadds, hbus, (congrArg State.bus hdiscard).trans hsending, hframe⟩))
    · exact .inr (.inl ⟨(inWindow_eq_true_iff s).2 (.inr hbus), hout.trans hadds⟩)
  | tick t =>
    obtain ⟨-, -, hu⟩ := hcases
    rcases (advance_outcome hu).out_cases with hsame | ⟨hbus, hsending, f, hframe, hadds⟩ | ⟨hbus, -, hadds⟩
    · exact .inl hsame
    · exact .inr (.inr (.inr ⟨f, hadds, hbus, hsending, hframe⟩))
    · exact .inr (.inl ⟨(inWindow_eq_true_iff s).2 (.inr hbus), hadds⟩)
  | txdone t =>
    obtain ⟨hbus, -, rfl⟩ := hcases
    rcases endTransmission_cases t (setTime t s) with ⟨-, hend⟩ | ⟨-, -, hend⟩ | ⟨-, -, hend⟩
    · exact .inl (by rw [hend]; rfl)
    · exact .inr (.inl ⟨(inWindow_eq_true_iff s).2 (.inl hbus), by rw [hend]; rfl⟩)
    · exact .inl (by rw [hend]; rfl)
  | reconfig c t =>
    obtain ⟨-, -, -, v, hv, hwindow, rfl⟩ := hcases
    have hout := reconfigure_out c t v
    rcases (advance_outcome hv).out_cases with hsame | ⟨-, hsending, -⟩ | ⟨hbus, -, hrelease⟩
    · rw [hsame] at hout
      cases hpin : c.dePresent with
      | false => exact .inl (by simpa [hpin] using hout)
      | true => exact .inr (.inr (.inl ⟨c, t, rfl, hpin, .inl (by simpa [hpin] using hout)⟩))
    · simp [inWindow, hsending] at hwindow
    · rw [hrelease] at hout
      cases hpin : c.dePresent with
      | false => exact .inr (.inl ⟨(inWindow_eq_true_iff s).2 (.inr hbus), by simpa [hpin] using hout⟩)
      | true => exact .inr (.inr (.inl ⟨c, t, rfl, hpin, .inr ⟨hbus, by simpa [hpin] using hout⟩⟩))
  | hostRead table a =>
    obtain ⟨-, -, rfl⟩ := hcases
    exact .inl rfl
  | hostWrite table a v =>
    obtain ⟨-, -, -, rfl⟩ := hcases
    obtain ⟨-, -, hout⟩ := driverView_eq_iff.1 (driverView_tableWrite s table a v)
    exact .inl hout

/-- Settles O36, by what `ADVANCE`, the end of a transmission and `RECONFIG` add to the trace. -/
theorem traceGrowsByWholeResponses : Obligations.TraceGrowsByWholeResponses := by
  intro s t e rest hinbox hstep hreset
  rcases step_event_cases hinbox hstep with ⟨c, t0, rfl, -⟩ | ⟨-, haccept | rfl⟩
  · cases hreset
  · exact handle_traceGrowth (s := popEvent rest s) hreset haccept
  · exact .inl rfl

end Sys2Proof.Machine
end

section
/-! The invariants (10_state.md, 46_tx_enable.md, 47_host_ports.md section 3): the invariant of the block in service, by
bus state, and the pin behind the line; both over every step and in `State.reset`. -/

namespace Sys2Proof.Machine

/-! ### Timing (rules R7, R8) -/

/-- A longer span of characters takes longer, at the baud rates where the timeouts are computed (rule R8). -/
theorem charTime_lt {baud : Nat} (hlo : 1 ≤ baud) (hhi : baud ≤ 19200) : charTime 15 baud < charTime 35 baud := by
  have hpos : 0 < 10 * baud := by omega
  calc charTime 15 baud
      < (15 * charBits * 1000000 + 10 * baud - 1 + 10 * baud) / (10 * baud) := by
        rw [Nat.add_div_right _ hpos]
        exact Nat.lt_succ_self _
    _ ≤ charTime 35 baud := Nat.div_le_div_right (by simp only [charBits]; omega)

/-- A span of characters takes some time (rule R8). -/
theorem charTime_pos {baud : Nat} (hlo : 1 ≤ baud) : 1 ≤ charTime 15 baud :=
  Nat.div_pos (by simp only [charBits]; omega) (by omega)

/-- Settles O51, on both sides of 19200 baud. -/
theorem timingIsOrderedAtEveryBaud : Obligations.TimingIsOrderedAtEveryBaud := by
  intro par baud hIC hIF hlo
  simp only [timeoutIC, timeoutIF, hIC, hIF, Option.getD_none]
  by_cases hfast : baud > 19200
  · simp [hfast]
  · simp only [if_neg hfast]
    exact ⟨charTime_pos hlo, charTime_lt hlo (Nat.le_of_not_lt hfast)⟩

/-! ### The invariant in service -/

/-- The part of the invariant in service that does not depend on the bus state. -/
structure Settled (s : State) : Prop where
  params : ParamsOk s.par
  memory : Memory.wf s = true
  tLast_le : s.tLast ≤ s.tNow
  tFlush_le : s.tFlush ≤ s.tNow
  validCfg : validCfg s.cfg = true
  tIC_eq : s.tIC = timeoutIC s.par s.cfg.baud
  tIF_eq : s.tIF = timeoutIF s.par s.cfg.baud

/-- The buffer and the line in each bus state in service; out of service it says `False`. -/
def BusOk (s : State) : Prop :=
  match s.bus with
  | .idleReady => s.buf = [] ∧ s.de = .receive
  | .idleResync => s.buf = [] ∧ s.de = .receive
  | .receiving => (1 ≤ s.buf.length ∧ s.buf.length ≤ s.par.maxAdu) ∧ s.de = .receive
  | .transmitting => s.buf = [] ∧ (s.de = .transmit ↔ s.cfg.dePresent = true)
  | .guardWait => s.buf = [] ∧ s.de = .transmit ∧ s.cfg.dePresent = true
  | .unconfigured => False
  | .configFault => False

/-- While listening between frames the buffer is empty and the line at receive. -/
theorem busOk_listening {s : State} (hbus : s.bus = .idleReady ∨ s.bus = .idleResync) :
    BusOk s ↔ s.buf = [] ∧ s.de = .receive := by
  rcases hbus with hbus | hbus <;> simp only [BusOk, hbus]

/-- While receiving the buffer holds 1 to `MAX_ADU` bytes and the line is at receive. -/
theorem busOk_receiving {s : State} (hbus : s.bus = .receiving) :
    BusOk s ↔ (1 ≤ s.buf.length ∧ s.buf.length ≤ s.par.maxAdu) ∧ s.de = .receive := by
  simp only [BusOk, hbus]

/-- While transmitting the buffer is empty and a pin is at transmit. -/
theorem busOk_transmitting {s : State} (hbus : s.bus = .transmitting) :
    BusOk s ↔ s.buf = [] ∧ (s.de = .transmit ↔ s.cfg.dePresent = true) := by
  simp only [BusOk, hbus]

/-- In the guard wait the buffer is empty, and there is a pin, at transmit. -/
theorem busOk_guardWait {s : State} (hbus : s.bus = .guardWait) :
    BusOk s ↔ s.buf = [] ∧ s.de = .transmit ∧ s.cfg.dePresent = true := by
  simp only [BusOk, hbus]

/-- The line is at receive or at transmit. -/
theorem line_ne_transmit_iff (x : Line) : ¬ x = .transmit ↔ x = .receive := by
  cases x <;> simp

/-- In service, the invariant is these two parts. -/
theorem inService_invariant_iff (s : State) : inService s = true ∧ Invariant s ↔ Settled s ∧ BusOk s := by
  have hsettled : Settled s ↔ ParamsOk s.par ∧ Memory.wf s = true ∧ (s.tLast ≤ s.tNow ∧ s.tFlush ≤ s.tNow) ∧
      validCfg s.cfg = true ∧ s.tIC = timeoutIC s.par s.cfg.baud ∧ s.tIF = timeoutIF s.par s.cfg.baud :=
    ⟨fun ⟨hpar, hmem, hlast, hflush, hcfg, hIC, hIF⟩ => ⟨hpar, hmem, ⟨hlast, hflush⟩, hcfg, hIC, hIF⟩,
      fun ⟨hpar, hmem, ⟨hlast, hflush⟩, hcfg, hIC, hIF⟩ => ⟨hpar, hmem, hlast, hflush, hcfg, hIC, hIF⟩⟩
  rw [hsettled]
  cases hbus : s.bus <;>
    simp [Invariant, BufferOk, TimeOk, LineOk, ConfigOk, BusOk, inService, inWindow, hbus, line_ne_transmit_iff] <;>
    tauto

/-! ### The invariant over the operations in service -/

/-- Time goes on (rule R26). -/
theorem Settled.setTime {s : State} {t : Nat} (h : Settled s) (htime : s.tNow ≤ t) : Settled (setTime t s) :=
  { h with tLast_le := h.tLast_le.trans htime, tFlush_le := h.tFlush_le.trans htime }

/-- Writing coils and holding registers in canonical form leaves the rest. -/
theorem Settled.setTables {s : State} {co : Cells 1} {hr : Cells 16} (h : Settled s)
    (hwf : Memory.wf s = true → Memory.wf { s with co := co, hr := hr } = true) :
    Settled { s with co := co, hr := hr } :=
  { h with memory := hwf h.memory }

/-- A request run on the state after its frame was taken out keeps the invariant (rules R140, R231, R247). -/
theorem ExecOutcome.invariant {s v : State} (h : ExecOutcome s v) (hsettled : Settled s) (hbus : s.bus = .idleReady)
    (hok : BusOk s) : Settled v ∧ BusOk v := by
  obtain ⟨hbuf, hde⟩ := (busOk_listening (.inl hbus)).1 hok
  cases h with
  | silent co hr hwf => exact ⟨hsettled.setTables hwf, (busOk_listening (.inl hbus)).2 ⟨hbuf, hde⟩⟩
  | answers co hr f hwf =>
    refine ⟨{ hsettled.setTables hwf with }, (busOk_transmitting rfl).2 ⟨hbuf, ?_⟩⟩
    cases hpin : s.cfg.dePresent <;> simp [hde, hpin]

/-- `ADVANCE` keeps the invariant (rules R120, R122, R123, R253). -/
theorem AdvanceOutcome.invariant {t : Nat} {s v : State} (h : AdvanceOutcome t s v) (hsettled : Settled s)
    (hok : BusOk s) : Settled v ∧ BusOk v := by
  cases h with
  | stays => exact ⟨hsettled, hok⟩
  | ready hbus =>
    have hidle := (busOk_listening (.inr hbus)).1 hok
    exact ⟨{ hsettled with }, (busOk_listening (.inl rfl)).2 hidle⟩
  | completes hbus hrun =>
    obtain ⟨-, hde⟩ := (busOk_receiving hbus).1 hok
    exact hrun.invariant { hsettled with } rfl ((busOk_listening (.inl rfl)).2 ⟨rfl, hde⟩)
  | releases hbus =>
    obtain ⟨hbuf, -, -⟩ := (busOk_guardWait hbus).1 hok
    exact ⟨{ hsettled with }, (busOk_listening (.inl rfl)).2 ⟨hbuf, rfl⟩⟩

/-- A byte received now keeps the invariant (rules R23, R124 to R127). -/
theorem ByteOutcome.invariant {b : Byte} {t : Nat} {s v : State} (h : ByteOutcome b t s v) (htime : s.tNow = t)
    (hsettled : Settled s) (hok : BusOk s) : Settled v ∧ BusOk v := by
  have hlast : t ≤ s.tNow := Nat.le_of_eq htime.symm
  cases h with
  | starts hbus =>
    obtain ⟨-, hde⟩ := (busOk_listening (.inl hbus)).1 hok
    obtain ⟨-, hadu, -⟩ := hsettled.params
    have hfits : 1 ≤ s.par.maxAdu := by omega
    exact ⟨{ hsettled with tLast_le := hlast }, (busOk_receiving rfl).2 ⟨⟨Nat.le_refl 1, hfits⟩, hde⟩⟩
  | breaks hbus =>
    obtain ⟨-, hde⟩ := (busOk_receiving hbus).1 hok
    exact ⟨{ hsettled with tLast_le := hlast }, (busOk_listening (.inr rfl)).2 ⟨rfl, hde⟩⟩
  | joins hbus hroom =>
    obtain ⟨⟨-, hlen⟩, hde⟩ := (busOk_receiving hbus).1 hok
    have hjoined : (s.buf ++ [b]).length = s.buf.length + 1 := List.length_append
    have hfits : 1 ≤ (s.buf ++ [b]).length ∧ (s.buf ++ [b]).length ≤ s.par.maxAdu := by omega
    exact ⟨{ hsettled with tLast_le := hlast },
      (busOk_receiving (s := { s with buf := s.buf ++ [b], tLast := t }) hbus).2 ⟨hfits, hde⟩⟩
  | restarts hbus =>
    have hidle := (busOk_listening (.inr hbus)).1 hok
    exact ⟨{ hsettled with tLast_le := hlast }, (busOk_listening (.inr hbus)).2 hidle⟩
  | discards => exact ⟨hsettled, hok⟩

/-- The end of a transmission keeps the invariant (rules R251, R252). -/
theorem endTransmission_invariant {t : Nat} {s : State} (hbus : s.bus = .transmitting) (htime : s.tNow = t)
    (hsettled : Settled s) (hok : BusOk s) : Settled (endTransmission t s) ∧ BusOk (endTransmission t s) := by
  have hflush : t ≤ s.tNow := Nat.le_of_eq htime.symm
  obtain ⟨hbuf, hde⟩ := (busOk_transmitting hbus).1 hok
  rcases endTransmission_cases t s with ⟨hpin, hend⟩ | ⟨hpin, -, hend⟩ | ⟨hpin, -, hend⟩ <;> rw [hend]
  · have hreceive : s.de = .receive :=
      (line_ne_transmit_iff _).1 fun h => Bool.false_ne_true (hpin.symm.trans (hde.1 h))
    exact ⟨{ hsettled with }, (busOk_listening (.inl rfl)).2 ⟨hbuf, hreceive⟩⟩
  · exact ⟨{ hsettled with tFlush_le := hflush }, (busOk_listening (.inl rfl)).2 ⟨hbuf, rfl⟩⟩
  · exact ⟨{ hsettled with tFlush_le := hflush }, (busOk_guardWait rfl).2 ⟨hbuf, hde.2 hpin, hpin⟩⟩

/-- `RECONFIG` keeps the invariant: the timing kept is that of the same baud rate (rules R275, R276). -/
theorem reconfigure_invariant {c : Cfg} {t : Nat} {s : State} (hvalid : validCfg c = true) (htime : s.tNow = t)
    (hsettled : Settled s) : Settled (reconfigure c t s) ∧ BusOk (reconfigure c t s) := by
  have hlast : t ≤ s.tNow := Nat.le_of_eq htime.symm
  have hIC : (if c.baud = s.cfg.baud then s.tIC else timeoutIC s.par c.baud) = timeoutIC s.par c.baud := by
    split
    · next hbaud => rw [hsettled.tIC_eq, hbaud]
    · rfl
  have hIF : (if c.baud = s.cfg.baud then s.tIF else timeoutIF s.par c.baud) = timeoutIF s.par c.baud := by
    split
    · next hbaud => rw [hsettled.tIF_eq, hbaud]
    · rfl
  rw [reconfigure_eq, hIC, hIF]
  exact ⟨{ hsettled with tLast_le := hlast, validCfg := hvalid, tIC_eq := rfl, tIF_eq := rfl },
    (busOk_listening (.inr rfl)).2 ⟨rfl, rfl⟩⟩

/-- A host write within the extent keeps the invariant (rule R273). -/
theorem tableWrite_invariant {s : State} {table : Table} {a v : Nat} (hrange : a < extent s.par table)
    (hsettled : Settled s) (hok : BusOk s) :
    Settled (tableWrite s table a v) ∧ BusOk (tableWrite s table a v) := by
  have hmem := memory_wf_tableWrite (v := v) hrange hsettled.memory
  cases table with
  | co | di | hr | ir => exact ⟨{ hsettled with memory := hmem }, hok⟩

/-! ### The invariant over every step -/

/-- Only `RESET` is accepted out of service (rules R270, R331). -/
theorem inService_of_handle {e : Event} {s u : State} (h : handle e s = .next (some u)) (hreset : isReset e = false) :
    inService s = true := by
  rw [← Bool.not_eq_false]
  intro hservice
  simp [handle_outOfService hservice hreset] at h

/-- An accepted event but `RESET` keeps the invariant. -/
theorem handle_invariant {e : Event} {s u : State} (hreset : isReset e = false) (h : handle e s = .next (some u))
    (hinv : Invariant s) : Invariant u := by
  obtain ⟨hsettled, hok⟩ := (inService_invariant_iff s).1 ⟨inService_of_handle h hreset, hinv⟩
  suffices hkeeps : Settled u ∧ BusOk u from ((inService_invariant_iff u).2 hkeeps).2
  have hcases := handle_cases h
  cases e with
  | reset c t0 => cases hreset
  | rx b t =>
    obtain ⟨-, htime, v, hv, rfl⟩ := hcases
    obtain ⟨hsettled', hok'⟩ := (advance_outcome hv).invariant (hsettled.setTime htime) hok
    obtain ⟨-, -, -, -, hnow, -⟩ := busFrame_eq_iff.1 (advance_outcome hv).busFrame_eq
    exact (receiveByte_outcome b t v).invariant hnow hsettled' hok'
  | tick t =>
    obtain ⟨-, htime, hu⟩ := hcases
    exact (advance_outcome hu).invariant (hsettled.setTime htime) hok
  | txdone t =>
    obtain ⟨hbus, htime, rfl⟩ := hcases
    exact endTransmission_invariant (s := setTime t s) hbus rfl (hsettled.setTime htime) hok
  | reconfig c t =>
    obtain ⟨-, htime, hvalid, v, hv, -, rfl⟩ := hcases
    obtain ⟨hsettled', -⟩ := (advance_outcome hv).invariant (hsettled.setTime htime) hok
    obtain ⟨-, -, -, -, hnow, -⟩ := busFrame_eq_iff.1 (advance_outcome hv).busFrame_eq
    exact reconfigure_invariant hvalid hnow hsettled'
  | hostRead table a =>
    obtain ⟨-, -, rfl⟩ := hcases
    exact ⟨{ hsettled with }, hok⟩
  | hostWrite table a v =>
    obtain ⟨-, hrange, -, rfl⟩ := hcases
    exact tableWrite_invariant hrange hsettled hok

/-- With legal parameters `RESET` establishes the invariant (rules R330, R35). -/
theorem resetBlock_invariant {s : State} (hparams : ParamsOk s.par) (c : Cfg) (t0 : Nat) :
    Invariant (resetBlock c t0 s) := by
  have hmem : Memory.wf (clearBlock t0 s) = true := by
    obtain ⟨-, -, -, hstore⟩ := hparams
    exact (memory_wf_iff _).2 hstore
  rcases resetBlock_cases c t0 s with ⟨hvalid, hend⟩ | ⟨-, hend⟩
  · rw [hend]
    have hsettled : Settled (acceptConfig c (clearBlock t0 s)) :=
      ⟨hparams, hmem, Nat.le_refl t0, Nat.zero_le t0, hvalid, rfl, rfl⟩
    exact ((inService_invariant_iff _).2 ⟨hsettled, (busOk_listening (.inr rfl)).2 ⟨rfl, rfl⟩⟩).2
  · rw [hend]
    exact ⟨hparams, hmem, by simp [BufferOk], by simp [TimeOk], by simp [LineOk, inWindow],
      by simp [ConfigOk, inService]⟩

/-- Settles O53, by the event: `RESET` establishes the invariant, an accepted event keeps it, a refused one changes none
of its fields. -/
theorem everyStepKeepsInvariant : Obligations.EveryStepKeepsInvariant := by
  intro s t hinv hstep
  obtain ⟨hparams, -⟩ := id hinv
  exact step_keeps hstep hinv (fun c t0 rest => resetBlock_invariant (s := popEvent rest s) hparams c t0)
    (fun _ => hinv) fun e rest hother haccept => handle_invariant (s := popEvent rest s) hother haccept hinv

/-! ### The pin behind the line -/

/-- The level last driven over two stretches of the trace. -/
theorem pinLevel_append (xs ys : List OutEvent) : pinLevel (xs ++ ys) = (pinLevel ys).or (pinLevel xs) := by
  induction xs with
  | nil => simp [pinLevel]
  | cons x xs ih =>
    cases x with
    | de l => cases hy : pinLevel ys <;> simp [pinLevel, ih, hy]
    | tx b => exact ih

/-- Sent bytes do not drive the pin. -/
theorem pinLevel_map_tx (f : List Byte) : pinLevel (f.map OutEvent.tx) = none := by
  induction f with
  | nil => rfl
  | cons b f ih => exact ih

/-- With a pin, the level last driven is the level of the line. -/
def PinLevelOk (s : State) : Prop := s.cfg.dePresent = true → pinLevel s.out = some (level s.cfg s.de)

/-- A state whose last `DE` event is the level of its line. -/
theorem pinLevelOk_of_out {s : State} {before : List OutEvent} (h : s.out = before ++ [.de (level s.cfg s.de)]) :
    PinLevelOk s := by
  intro _
  rw [h, pinLevel_append]
  rfl

/-- A response drives the pin to transmit before its bytes (rule R247). -/
theorem pinLevelOk_answered (f : List Byte) (s : State) : PinLevelOk (answered f s) := by
  intro hpin
  have hcfg : s.cfg.dePresent = true := hpin
  simp [responseOutput, hcfg, pinLevel_append, pinLevel_map_tx, pinLevel, level_transmit]

/-- `ADVANCE` keeps the pin on the line. -/
theorem AdvanceOutcome.pinLevelOk {t : Nat} {s v : State} (h : AdvanceOutcome t s v) (hpin : PinLevelOk s) :
    PinLevelOk v := by
  cases h with
  | stays | ready => exact hpin
  | completes _ hrun => cases hrun with
    | silent => exact hpin
    | answers co hr f => exact pinLevelOk_answered f _
  | releases => exact pinLevelOk_of_out rfl

/-- A received byte does not drive the pin. -/
theorem ByteOutcome.pinLevelOk {b : Byte} {t : Nat} {s v : State} (h : ByteOutcome b t s v) (hpin : PinLevelOk s) :
    PinLevelOk v := by
  cases h with
  | starts | breaks | joins | restarts | discards => exact hpin

/-- The end of a transmission keeps the pin on the line (rules R251, R252). -/
theorem endTransmission_pinLevelOk {s : State} (hpin : PinLevelOk s) (t : Nat) : PinLevelOk (endTransmission t s) := by
  rcases endTransmission_cases t s with ⟨-, hend⟩ | ⟨-, -, hend⟩ | ⟨-, -, hend⟩
  · exact hend ▸ hpin
  · exact hend ▸ pinLevelOk_of_out rfl
  · exact hend ▸ hpin

/-- `RECONFIG` drives the pin of its record to receive (rule R275). -/
theorem reconfigure_pinLevelOk (c : Cfg) (t : Nat) (s : State) : PinLevelOk (reconfigure c t s) := by
  intro hpin
  have hc : c.dePresent = true := by simpa only [reconfigure_eq] using hpin
  rw [reconfigure_eq] at hpin ⊢
  exact pinLevelOk_of_out (before := s.out) (by simp [hc, level_receive]) hpin

/-- `RESET` drives the pin of a valid record to receive, and leaves service with an invalid one (rule R330). -/
theorem resetBlock_pinFollowsLine (c : Cfg) (t0 : Nat) (s : State) : PinFollowsLine (resetBlock c t0 s) := by
  intro hservice hpin
  rcases resetBlock_cases c t0 s with ⟨-, hend⟩ | ⟨-, hend⟩
  · rw [hend] at hpin ⊢
    have hc : c.dePresent = true := hpin
    exact pinLevelOk_of_out (before := []) (by simp [hc]) hpin
  · simp [hend, inService] at hservice

/-- An accepted event but `RESET` keeps the pin on the line. -/
theorem handle_pinLevelOk {e : Event} {s u : State} (hreset : isReset e = false) (h : handle e s = .next (some u))
    (hpin : PinLevelOk s) : PinLevelOk u := by
  have hcases := handle_cases h
  cases e with
  | reset c t0 => cases hreset
  | rx b t =>
    obtain ⟨-, -, v, hv, rfl⟩ := hcases
    exact (receiveByte_outcome b t v).pinLevelOk ((advance_outcome hv).pinLevelOk hpin)
  | tick t =>
    obtain ⟨-, -, hu⟩ := hcases
    exact (advance_outcome hu).pinLevelOk hpin
  | txdone t =>
    obtain ⟨-, -, rfl⟩ := hcases
    exact endTransmission_pinLevelOk (s := setTime t s) hpin t
  | reconfig c t =>
    obtain ⟨-, -, -, v, -, -, rfl⟩ := hcases
    exact reconfigure_pinLevelOk c t v
  | hostRead table a =>
    obtain ⟨-, -, rfl⟩ := hcases
    exact hpin
  | hostWrite table a v =>
    obtain ⟨-, -, -, rfl⟩ := hcases
    cases table <;> exact hpin

/-- Settles O54, by the event: `RESET` drives the pin, an accepted event keeps it on the line, a refused one leaves
both. -/
theorem everyStepKeepsPinOnLine : Obligations.EveryStepKeepsPinOnLine := by
  intro s t hpin hstep
  refine step_keeps hstep hpin (fun c t0 rest => resetBlock_pinFollowsLine c t0 _) (fun _ => hpin) ?_
  intro e rest hother haccept
  have hservice : inService s = true := inService_of_handle (s := popEvent rest s) haccept hother
  exact fun _ => handle_pinLevelOk (s := popEvent rest s) hother haccept (hpin hservice)

/-! ### The state after reset -/

/-- The parameters of `State.reset` are legal (rule R7; log entry 3). -/
theorem paramsOk_resetParams : ParamsOk Config.resetParams := by
  refine ⟨by decide, by decide, fun baud hlo => ?_, rfl, rfl, rfl, rfl⟩
  exact timingIsOrderedAtEveryBaud Config.resetParams baud rfl rfl hlo

/-- Settles O52: `State.reset` is what an accepted `RESET` leaves, but for fields the invariants do not read. -/
theorem resetStateSatisfiesInvariant : Obligations.ResetStateSatisfiesInvariant :=
  ⟨resetBlock_invariant (s := State.reset) paramsOk_resetParams Config.resetCfg 0,
    resetBlock_pinFollowsLine Config.resetCfg 0 State.reset⟩

end Sys2Proof.Machine
end

section
/-! Runs of several steps (41_frame_parser.md section 2, 60_exceptions.md section 2): a frame received byte by byte, and
a byte and a tick with one timestamp. -/

namespace Sys2Proof.Machine

/-- A run of one step more. -/
theorem run_succ {s t : State} (h : step s = .next t) (n : Nat) :
    Host.Core.run core (n + 1) s = Host.Core.run core n t := by
  have hcore : core.step s = .next t := h
  simp only [Host.Core.run, hcore]

/-! ### A frame received byte by byte (rules R123, R124) -/

/-- The state after a byte joined the frame in progress (rule R124). -/
def joined (b : Byte) (t : Nat) (rest : List Event) (s : State) : State :=
  { s with inbox := rest, reply := some .done, tNow := t, buf := s.buf ++ [b], tLast := t }

/-- A byte in time, with room for it, joins the frame in progress. -/
theorem step_rx_joins {s : State} {b : Byte} {t : Nat} {rest : List Event} (hbus : s.bus = .receiving)
    (htime : s.tNow ≤ t) (hgap : t - s.tLast ≤ s.tIC) (hsilence : t - s.tLast < s.tIF)
    (hroom : s.buf.length ≠ s.par.maxAdu) (hinbox : s.inbox = .rx b t :: rest) :
    step s = .next (joined b t rest s) := by
  obtain ⟨-, -, hjoins⟩ := byteJoinsOverflowsOrBreaksFrame s b t rest hbus htime hsilence hinbox
  exact hjoins hgap hroom

/-- Bytes in time, with room for all of them, all join the frame in progress. -/
theorem run_rx_joins : ∀ (more : List (Byte × Nat)) (s : State) (rest : List Event), s.bus = .receiving →
    s.tNow = s.tLast → s.reply = some .done → inTime s.tIC s.tIF s.tLast more →
    s.buf.length + more.length ≤ s.par.maxAdu → s.inbox = (more.map fun x => Event.rx x.1 x.2) ++ rest →
    Host.Core.run core more.length s = .next { s with
      inbox := rest, tNow := lastTime s.tNow more, tLast := lastTime s.tLast more
      buf := s.buf ++ more.map Prod.fst }
  | [], s, rest, _, _, _, _, _, hinbox => by
    have hrest : s.inbox = rest := hinbox
    simp only [lastTime, List.map_nil, List.append_nil, ← hrest]
    rfl
  | (b, t) :: more, s, rest, hbus, hnow, hreply, hin, hlen, hinbox => by
    obtain ⟨htime, hgap, hsilence, hin⟩ := hin
    simp only [List.length_cons] at hlen
    have hroom : s.buf.length ≠ s.par.maxAdu := by omega
    have hfits : (joined b t ((more.map fun x => Event.rx x.1 x.2) ++ rest) s).buf.length + more.length ≤
        s.par.maxAdu := by
      simp only [joined, List.length_append, List.length_singleton]
      omega
    have hstep : step s = .next (joined b t ((more.map fun x => Event.rx x.1 x.2) ++ rest) s) :=
      step_rx_joins hbus (hnow.symm ▸ htime) hgap hsilence hroom hinbox
    rw [List.length_cons, run_succ hstep, run_rx_joins more (joined b t _ s) rest hbus rfl rfl hin hfits rfl]
    simp only [joined, lastTime, List.map_cons, List.append_assoc, List.singleton_append, hreply]

/-- Settles O30: the first byte starts the frame, and every other joins it. -/
theorem frameSentInTimeIsReceivedWhole : Obligations.FrameSentInTimeIsReceivedWhole := by
  intro s b t more rest hbus htime hin hlen hinbox
  obtain ⟨hstarts, -⟩ := idleByteStartsFrameOrRestartsWait s b t _ htime hinbox
  rw [run_succ (hstarts (.inl hbus)),
    run_rx_joins more _ rest rfl rfl rfl hin (by simp only [List.length_singleton]; omega) rfl]
  rfl

/-! ### A byte and a tick with one timestamp (rule R310) -/

/-- The same state with other events to come. -/
def withInbox (events : List Event) (s : State) : State := { s with inbox := events }

/-- Delivering a response does not depend on the events to come. -/
theorem deliver_withInbox (addr : Byte) (r : Response) (events : List Event) (s : State) :
    deliver addr r (withInbox events s) = withInbox events (deliver addr r s) := by
  by_cases hzero : addr = 0#8
  · rw [hzero, deliver_broadcast, deliver_broadcast]
  · rw [deliver_addressed hzero, deliver_addressed hzero]
    rfl

/-- What a function does does not depend on the events to come. -/
theorem runFunction_withInbox {addr fc : Byte} {failure : Option ExcCode} {effect : State → State} {data : List Byte}
    {s u : State} (events : List Event) (h : runFunction addr fc failure effect data s = .next u)
    (heffect : effect (withInbox events s) = withInbox events (effect s)) :
    runFunction addr fc failure effect data (withInbox events s) = .next (withInbox events u) := by
  have hfilter : addressed (withInbox events s) addr = addressed s addr := rfl
  rcases runFunction_cases h with ⟨hforeign, hu⟩ | ⟨hpass, c, rfl, hu⟩ | ⟨hpass, rfl, hu⟩
  all_goals obtain rfl := Host.Outcome.next.inj hu
  · exact runFunction_foreign (hfilter.trans hforeign) ..
  · simp [runFunction, hfilter, hpass, raiseException, deliver_withInbox]
  · simp [runFunction, hfilter, hpass, heffect, deliver_withInbox]

/-- What a request does does not depend on the events to come. -/
theorem exec_withInbox {i : Instr} {s u : State} (events : List Event) (h : exec i s = .next u) :
    exec i (withInbox events s) = .next (withInbox events u) := by
  cases i with
  | rdco | rddi | rdhr | rdir => exact runFunction_withInbox events h rfl
  | wrco =>
    rw [exec_wrco] at h ⊢
    exact runFunction_withInbox events h rfl
  | wrhr =>
    rw [exec_wrhr] at h ⊢
    exact runFunction_withInbox events h rfl
  | wmco =>
    rw [exec_wmco] at h ⊢
    exact runFunction_withInbox events h rfl
  | wmhr =>
    rw [exec_wmhr] at h ⊢
    exact runFunction_withInbox events h rfl
  | illegal =>
    rw [exec_illegal] at h ⊢
    exact runFunction_withInbox events h rfl

/-- What `ADVANCE` does does not depend on the events to come. -/
theorem advance_withInbox {t : Nat} {s u : State} (events : List Event) (h : advance t s = .next u) :
    advance t (withInbox events s) = .next (withInbox events u) := by
  rcases advance_cases t s with ⟨hbus, hover, hready⟩ | ⟨hbus, hover, hcomplete⟩ | ⟨hbus, hover, hrelease⟩ |
    ⟨hsame, hresync, hreceiving, hguard⟩
  · obtain rfl := Host.Outcome.next.inj (hready.symm.trans h)
    exact advance_resync_over (s := withInbox events s) hbus hover
  · rw [hcomplete] at h
    rw [advance_receiving_over (s := withInbox events s) hbus hover]
    rcases complete_cases s with ⟨r, hdec, hdrop⟩ | ⟨i, hdec, hrun⟩
    · obtain rfl := Host.Outcome.next.inj (hdrop.symm.trans h)
      have hdec' : decode (withInbox events s).buf = .error r := hdec
      simp only [complete, hdec']
      rfl
    · have hdec' : decode (withInbox events s).buf = .ok i := hdec
      simp only [complete, hdec']
      exact exec_withInbox (s := takeFrame s) events (hrun.symm.trans h)
  · obtain rfl := Host.Outcome.next.inj (hrelease.symm.trans h)
    exact advance_guard_over (s := withInbox events s) hbus hover
  · obtain rfl := Host.Outcome.next.inj (hsame.symm.trans h)
    exact advance_early (s := withInbox events s) (fun hb => hb.elim hresync hreceiving) hguard

/-- Neither does what accumulation does. -/
theorem accumulate_withInbox (b : Byte) (t : Nat) (events : List Event) (s : State) :
    accumulate b t (withInbox events s) = withInbox events (accumulate b t s) := by
  rcases accumulate_cases b t s with ⟨hgap, h⟩ | ⟨hgap, hfull, h⟩ | ⟨hgap, hroom, h⟩
  · rw [h, accumulate, if_pos (by exact hgap)]
    rfl
  · rw [h, accumulate, if_neg (by exact Nat.not_lt.2 hgap), if_pos (by exact hfull)]
    rfl
  · rw [h, accumulate, if_neg (by exact Nat.not_lt.2 hgap), if_neg (by exact hroom)]
    rfl

/-- Neither does what a received byte does. -/
theorem receiveByte_withInbox (b : Byte) (t : Nat) (events : List Event) (s : State) :
    receiveByte b t (withInbox events s) = withInbox events (receiveByte b t s) := by
  have hsame : (withInbox events s).bus = s.bus := rfl
  cases hbus : s.bus with
  | receiving => simp only [receiveByte, hsame, hbus, accumulate_withInbox]
  | idleReady | idleResync =>
    simp only [receiveByte, hsame, hbus]
    rfl
  | transmitting | guardWait | unconfigured | configFault => simp only [receiveByte, hsame, hbus]

/-- A second `ADVANCE` at the same time does nothing. -/
theorem AdvanceOutcome.advance_again {t : Nat} {s v : State} (h : AdvanceOutcome t s v) : advance t v = .next v := by
  cases h with
  | stays hsame => exact hsame
  | ready => exact advance_idleReady rfl t
  | releases => exact advance_idleReady rfl t
  | completes _ hrun => cases hrun with
    | silent => exact advance_idleReady rfl t
    | answers => exact advance_transmitting rfl t

/-- After a byte no deadline stands that did not stand before it. -/
theorem ByteOutcome.advance_same {b : Byte} {t : Nat} {s v : State} (h : ByteOutcome b t s v) (hIF : 0 < s.tIF)
    (hsame : advance t s = .next s) : advance t v = .next v := by
  cases h with
  | discards => exact hsame
  | starts hbus | breaks hbus | joins hbus | restarts hbus =>
    refine advance_early (fun _ => ?_) (by simp [hbus])
    simpa using hIF

/-- `ADVANCE` stays in service (rules R122, R123, R253). -/
theorem AdvanceOutcome.inService {t : Nat} {s v : State} (h : AdvanceOutcome t s v) (hservice : inService s = true) :
    inService v = true := by
  cases h with
  | stays => exact hservice
  | ready | releases => rfl
  | completes _ hrun => cases hrun with
    | silent | answers => rfl

/-- A received byte stays in service (rules R124 to R127, R129). -/
theorem ByteOutcome.inService {b : Byte} {t : Nat} {s v : State} (h : ByteOutcome b t s v)
    (hservice : inService s = true) : inService v = true := by
  cases h with
  | starts | breaks => rfl
  | joins | restarts | discards => exact hservice

/-- Taking an event at the time the block already has, with the same events to come after it, finds the same state. -/
theorem taken_withInbox {s w : State} {t : Nat} {rest : List Event}
    (hframe : busFrame w = busFrame (setTime t (popEvent rest s))) (events : List Event) :
    setTime t (popEvent rest (withInbox events w)) = w := by
  obtain ⟨-, -, -, -, hnow, hinbox, hreply⟩ := busFrame_eq_iff.1 hframe
  have htime : t = w.tNow := hnow.symm
  have hrest : rest = w.inbox := hinbox.symm
  have hdone : some Reply.done = w.reply := hreply.symm
  calc setTime t (popEvent rest (withInbox events w))
      = { w with tNow := t, inbox := rest, reply := some .done } := rfl
    _ = w := by rw [htime, hrest, hdone]

/-- Settles O32: the tick finds no deadline after the byte, and the byte finds the deadline the tick has dealt with. -/
theorem byteAndTickAtOneTimeCommute : Obligations.ByteAndTickAtOneTimeCommute := by
  intro s b t rest hIF htime hservice
  obtain ⟨w, hw⟩ := advance_next t (setTime t (popEvent rest s))
  have hout := advance_outcome hw
  have hbyte := receiveByte_outcome b t w
  obtain ⟨-, -, -, hwIF, hwnow, -⟩ := busFrame_eq_iff.1 hout.busFrame_eq
  obtain ⟨-, -, -, -, hbytenow, -⟩ := busFrame_eq_iff.1 hbyte.busFrame_eq
  have hnow : w.tNow = t := hwnow
  have hwservice : inService w = true := hout.inService hservice
  have hadvance (events : List Event) := advance_withInbox events hw
  have byteThenTick : Host.Core.run core 2 { s with inbox := .rx b t :: .tick t :: rest } =
      .next (receiveByte b t w) := by
    have hone : step { s with inbox := .rx b t :: .tick t :: rest } =
        .next (withInbox (.tick t :: rest) (receiveByte b t w)) := by
      rw [← receiveByte_withInbox]
      exact step_rx hservice htime rfl (hadvance _)
    have htwo : step (withInbox (.tick t :: rest) (receiveByte b t w)) = .next (receiveByte b t w) := by
      refine step_tick (hbyte.inService hwservice) (Nat.le_of_eq (hbytenow.trans hnow)) rfl ?_
      rw [taken_withInbox (hbyte.busFrame_eq.trans hout.busFrame_eq)]
      exact hbyte.advance_same (hwIF ▸ hIF) hout.advance_again
    rw [run_succ hone, run_succ htwo]
    rfl
  have tickThenByte : Host.Core.run core 2 { s with inbox := .tick t :: .rx b t :: rest } =
      .next (receiveByte b t w) := by
    have hone : step { s with inbox := .tick t :: .rx b t :: rest } = .next (withInbox (.rx b t :: rest) w) :=
      step_tick hservice htime rfl (hadvance _)
    have htwo : step (withInbox (.rx b t :: rest) w) = .next (receiveByte b t w) := by
      refine step_rx hwservice (Nat.le_of_eq hnow) rfl ?_
      rw [taken_withInbox hout.busFrame_eq]
      exact hout.advance_again
    rw [run_succ hone, run_succ htwo]
    rfl
  rw [byteThenTick, tickThenByte]

end Sys2Proof.Machine
end
